-- ==== Sys2Proof/Word.lean ====
section
/-! DEFINITION. The word types of ENCE464-CORE: the command word (R86), the raw sample (R20) and the response (R96). -/

namespace Sys2Proof

/-- A command word, bit 0 least significant (R6, R86). -/
abbrev Word := BitVec 32

/-- A RawSample: an unsigned integer in 0..4095, held in 12 bits (R4, R20). -/
abbrev RawSample := BitVec 12

/-- The response port's value (R96). -/
abbrev Resp := BitVec 16

end Sys2Proof
end

