-- ==== Sys2Proof/Config.lean ====
section
/-! DEFINITION. The configuration record: the constants the source gives (R4), the parameters it leaves open (R5) with
the spec's defaults, and the opaque values those parameters have in the machine. -/

namespace Sys2Proof.Config

/-- The sizes among the constants of R4, the part of the record the types of State are built from. -/
structure Sizes where
  /-- `RAW_MAX`: a RawSample is in 0..`RAW_MAX`. -/
  rawMax : Nat
  /-- `N0`, the capacity of ring instance 0. -/
  n0 : Nat
  /-- `N1`, the capacity of ring instance 1. -/
  n1 : Nat
  /-- `H_STEPS`: target height indices are 0..`H_STEPS`-1. -/
  hSteps : Nat
  /-- `Y_STEPS`: target yaw indices are 0..`Y_STEPS`-1. -/
  ySteps : Nat
  /-- `TIMER_W`, the width of a timer reading. -/
  timerW : Nat
deriving DecidableEq, Repr

/-- The sizes the source prints (R4). The type `RawSample` holds exactly 0..`RAW_MAX`: see `rawSample_le`. -/
@[reducible] def sizes : Sizes where
  rawMax := 4095
  n0 := 5
  n1 := 10
  hSteps := 11
  ySteps := 24
  timerW := 32

/-- `RAW_MAX` (R4). -/
@[simp] abbrev rawMax : Nat := sizes.rawMax

/-- `N0` (R4). -/
@[simp] abbrev n0 : Nat := sizes.n0

/-- `N1` (R4). -/
@[simp] abbrev n1 : Nat := sizes.n1

/-- `H_STEPS` (R4). -/
@[simp] abbrev hSteps : Nat := sizes.hSteps

/-- `Y_STEPS` (R4). -/
@[simp] abbrev ySteps : Nat := sizes.ySteps

/-- `TIMER_W` (R4). -/
@[simp] abbrev timerW : Nat := sizes.timerW

/-- A direction code of the quadrature table (R82). -/
inductive Direction where
  | clockwise
  | still
  | anticlockwise
deriving DecidableEq, Repr, Inhabited

/-- The arithmetic of the PID law, the parameter `NUM` (R5, R197): the three operations a number format replaces. -/
structure Num where
  add : Rat → Rat → Rat
  mul : Rat → Rat → Rat
  div : Rat → Rat → Rat

/-- `NUM`'s default: exact rationals (R197). -/
def exactNum : Num where
  add x y := x + y
  mul x y := x * y
  div x y := x / y

/-- The constants of one control axis (R190, R194): base duty offset, gains, integral deadband and duty ceiling. -/
structure Axis where
  offset : Int
  kp : Rat
  kd : Rat
  ki : Rat
  db : Int
  ceil : Int

/-- The constants the source gives (R4), one record that the machine takes them from and a claim may quantify over. The
types of State are built from the record's sizes, so a machine's record has these: see `Params.sizesFit`, log 25. -/
structure Constants where
  sizes : Sizes
  rev : Int
  cntHi : Int
  cntLo : Int
  degNum : Int
  degDen : Int
  cw : Int
  still : Int
  acw : Int
  hTable : Vector Int Config.hSteps
  height : Axis
  yaw : Axis
  parkWin : Int
  dutyMin : Int
  dutyMax : Int
  reloadThreshold : Nat
  reloadValue : BitVec Config.timerW
  /-- In microseconds, 12.5 as printed, unaudited. No rule of the machine uses it; the spec's value of `DT_SCALE` "under the
  reading" of R5 does. -/
  tickDuration : Rat

/-- `H_TABLE[i] = 100 * i` (R4, R185). -/
def heightTable : Vector Int hSteps := #v[0, 100, 200, 300, 400, 500, 600, 700, 800, 900, 1000]

/-- `PREFILL` at its default 0 (R5, R20, decision D4). DESIGN CHOICE, unsafe: see log 7. -/
def prefill : RawSample := 0#12

/-- The values the source prints (R4). `RELOAD_THRESHOLD` is taken as exact (decision D30). -/
def sourceConstants : Constants where
  sizes := sizes
  rev := 448
  cntHi := 224
  cntLo := -223
  degNum := 360
  degDen := 448
  cw := -1
  still := 0
  acw := 1
  hTable := heightTable
  height := { offset := 50, kp := 1 / 10, kd := 0, ki := 1 / 100000, db := 20, ceil := 99 }
  yaw := { offset := 40, kp := 1, kd := 0, ki := 1 / 5000, db := 2, ceil := 85 }
  parkWin := 10
  dutyMin := 0
  dutyMax := 99
  reloadThreshold := 400000000
  reloadValue := 1000000000#32
  tickDuration := 25 / 2

/-- The tick delta a code stands for: `CW`, `STILL` or `ACW` (R4, R82). -/
def Constants.delta (c : Constants) : Direction → Int
  | .clockwise => c.cw
  | .still => c.still
  | .anticlockwise => c.acw

/-- The tick delta a code stands for with the printed constants: Clockwise = -1, Still = 0, Anticlockwise = +1 (R82). -/
def Direction.delta (d : Direction) : Int := sourceConstants.delta d

/-- One configuration record: the constants of R4 and the open parameters of R5.
`degRoundsUp` and `dutyRaw` carry `DEG_ROUND` and `DUTY_ROUND` in a form that meets the spec's constraints on them by
construction (R137, decision D17): see `degRound` and `dutyRound` in Machine/Operands.lean. -/
structure Params where
  const : Constants
  /-- The machine's types have the sizes of `Config.sizes`, so no record of it names others. -/
  sizesFit : const.sizes = Config.sizes
  prefill : RawSample
  dirTable : Vector Direction 16
  degRoundsUp : Rat → Bool
  yTable : Vector Int Config.ySteps
  parkPred : Int → Bool
  dutyRaw : Rat → Int
  dtScale : Rat
  num : Num

/-- The default `DIR_TABLE` (R83): the standard quadrature table, from general knowledge as the spec marks it (G1). -/
def defaultDirTable : Vector Direction 16 :=
  #v[.still, .clockwise, .anticlockwise, .still,
     .anticlockwise, .still, .still, .clockwise,
     .clockwise, .still, .still, .anticlockwise,
     .still, .anticlockwise, .clockwise, .still]

/-- The default `Y_TABLE` (R192, decision D18). -/
def defaultYTable : Vector Int ySteps :=
  #v[-165, -150, -135, -120, -105, -90, -75, -60, -45, -30, -15, 0,
     15, 30, 45, 60, 75, 90, 105, 120, 135, 150, 165, 179]

/-- Every open parameter at the spec's default (R5): truncation toward zero rounds a non-integer up exactly when it is
negative, the parked test is `|e| ≤ 10`, the duty is the floor. `DT_SCALE` has no normative default: the value here is
the spec's 1/80000 "under the reading" of R5, one tick in seconds. The test vectors of 95 assume this record. -/
def Params.default : Params where
  const := sourceConstants
  sizesFit := rfl
  prefill := Config.prefill
  dirTable := defaultDirTable
  degRoundsUp q := decide (q < 0)
  yTable := defaultYTable
  parkPred e := decide ((e.natAbs : Int) ≤ sourceConstants.parkWin)
  dutyRaw q := q.floor
  dtScale := sourceConstants.tickDuration / 1000000
  num := exactNum

/-- `DIR_TABLE` of the machine: any 16 entries, each in -1, 0, +1 (R5, R83). Free: see log 8. -/
opaque dirTable : Vector Direction 16

/-- `DEG_ROUND` of the machine: which neighbour a non-integer degree goes to (R5, R137). Free: see log 9. -/
opaque degRoundsUp : Rat → Bool

/-- `Y_TABLE` of the machine: any 24 integers (R5, R192). Free: see log 10. -/
opaque yTable : Vector Int ySteps

/-- `PARK_PRED` of the machine: any predicate on an integer error (R5, R186). Free: see log 11. -/
opaque parkPred : Int → Bool

/-- `DUTY_ROUND` of the machine before its range constraint (R5, R191). Free: see log 12. -/
opaque dutyRaw : Rat → Int

/-- Numerator of `DT_SCALE`, a positive rational (R5, R182). Free: see log 13. -/
opaque dtScaleNum : ℕ+

/-- Denominator of `DT_SCALE` (R5, R182). Free: see log 13. -/
opaque dtScaleDen : ℕ+

/-- `DT_SCALE` of the machine: some positive rational, in time units per tick (R5, R182). -/
def dtScale : Rat := ((dtScaleNum : ℕ) : Rat) / ((dtScaleDen : ℕ) : Rat)

end Sys2Proof.Config
end

