-- ==== Sys2Proof/Syntax.lean ====
section
/-! DEFINITION. The fourteen operations of the opcode map (R89), one constructor per row of spec/opcode_table.json. -/

namespace Sys2Proof

/-- The ring filter instance an operation selects: operand `i` (R88, R110). -/
inductive Ring where
  /-- `i = 0`: height, capacity 5. -/
  | height
  /-- `i = 1`: potentiometer, capacity 10. -/
  | pot
deriving DecidableEq, Repr

/-- `Ni`: the instance's capacity, fixed at construction (R4, R110). -/
def Ring.capacity : Ring → Nat
  | .height => Config.n0
  | .pot => Config.n1

/-- The operations of R89, operands in the order of its "operands" column. -/
inductive Instr where
  | rfWrite (i : Ring) (v : RawSample)
  | rfRead (i : Ring) (k : BitVec 4)
  | rfMean (i : Ring)
  | qdEdge (b a : BitVec 1)
  | qdRef
  | qdYaw
  | smpRun (r : RawSample)
  | ctlRun
  | hsTakeS
  | hsGiveC
  | hsTakeC
  | hsGiveS
  | setTgtH (x : BitVec 4)
  | setTgtY (y : BitVec 5)
deriving DecidableEq, Repr

/-- The mnemonic of R89, letter for letter. -/
def Instr.mnemonic : Instr → String
  | .rfWrite _ _ => "RF_WRITE"
  | .rfRead _ _ => "RF_READ"
  | .rfMean _ => "RF_MEAN"
  | .qdEdge _ _ => "QD_EDGE"
  | .qdRef => "QD_REF"
  | .qdYaw => "QD_YAW"
  | .smpRun _ => "SMP_RUN"
  | .ctlRun => "CTL_RUN"
  | .hsTakeS => "HS_TAKE_S"
  | .hsGiveC => "HS_GIVE_C"
  | .hsTakeC => "HS_TAKE_C"
  | .hsGiveS => "HS_GIVE_S"
  | .setTgtH _ => "SET_TGT_H"
  | .setTgtY _ => "SET_TGT_Y"

end Sys2Proof
end

