-- ==== Sys2Proof/Decode.lean ====
section
/-! DEFINITION. The command word (R86 to R90): its four fields, the opcode map as a list of rows, a total decoder that
refuses by name, and the encoder. -/

namespace Sys2Proof

/-- One row of the opcode map (R89): a word selects the row when `w &&& mask = bits`. -/
structure OpcodeRow where
  mnemonic : String
  bits : Word
  mask : Word
deriving DecidableEq, Repr

/-- The opcode map of R89, in the table's order. -/
def opcodeMap : List OpcodeRow :=
  [⟨"RF_WRITE", 0x10000000#32, 0xFFFEF000#32⟩,
   ⟨"RF_READ", 0x11000000#32, 0xFFFEFFF0#32⟩,
   ⟨"RF_MEAN", 0x12000000#32, 0xFFFEFFFF#32⟩,
   ⟨"QD_EDGE", 0x20000000#32, 0xFFFFFFFC#32⟩,
   ⟨"QD_REF", 0x21000000#32, 0xFFFFFFFF#32⟩,
   ⟨"QD_YAW", 0x22000000#32, 0xFFFFFFFF#32⟩,
   ⟨"SMP_RUN", 0x30000000#32, 0xFFFFF000#32⟩,
   ⟨"CTL_RUN", 0x40000000#32, 0xFFFFFFFF#32⟩,
   ⟨"HS_TAKE_S", 0x50000000#32, 0xFFFFFFFF#32⟩,
   ⟨"HS_GIVE_C", 0x51000000#32, 0xFFFFFFFF#32⟩,
   ⟨"HS_TAKE_C", 0x52000000#32, 0xFFFFFFFF#32⟩,
   ⟨"HS_GIVE_S", 0x53000000#32, 0xFFFFFFFF#32⟩,
   ⟨"SET_TGT_H", 0x60000000#32, 0xFFFFFFF0#32⟩,
   ⟨"SET_TGT_Y", 0x61000000#32, 0xFFFFFFE0#32⟩]

/-- The row a word selects (R89). -/
def OpcodeRow.selectedBy (row : OpcodeRow) (w : Word) : Bool := w &&& row.mask == row.bits

/-- Why a word is no operation, in the three classes R90 lists. All three are the one refusal IllegalCommand (R251). -/
inductive DecodeError where
  /-- `UNIT` in 0, 7..15. -/
  | unknownUnit
  /-- An undefined `FUNC` of a defined unit. -/
  | unknownFunc
  /-- A nonzero bit where the row's pattern prints `0`. -/
  | reservedBits
deriving DecidableEq, Repr

/-- `UNIT`, bits 31:28 (R86). -/
def unitField (w : Word) : BitVec 4 := w.extractLsb' 28 4

/-- `FUNC`, bits 27:24 (R86). -/
def funcField (w : Word) : BitVec 4 := w.extractLsb' 24 4

/-- `SEL`, bits 23:16 (R86). -/
def selField (w : Word) : BitVec 8 := w.extractLsb' 16 8

/-- `IMM`, bits 15:0 (R86). -/
def immField (w : Word) : BitVec 16 := w.extractLsb' 0 16

/-- The word with the given four fields (R86). -/
def packFields (unit func : BitVec 4) (sel : BitVec 8) (imm : BitVec 16) : Word :=
  (unit.setWidth 32 <<< 28) ||| (func.setWidth 32 <<< 24) ||| (sel.setWidth 32 <<< 16) ||| imm.setWidth 32

/-- `SEL` of a format `SI` word: only bit 16 is ever used (R86, R87). -/
def ringOfSel (sel : BitVec 8) : Except DecodeError Ring :=
  if sel = 0#8 then .ok .height else if sel = 1#8 then .ok .pot else .error .reservedBits

/-- The operand in the low `n` bits of `IMM`; the unused high bits are always 0 (R86, R88). -/
def operandOfImm (n : Nat) (imm : BitVec 16) : Except DecodeError (BitVec n) :=
  if imm.toNat < 2 ^ n then .ok (imm.setWidth n) else .error .reservedBits

/-- Format `SI` (R87). -/
def formatSI (n : Nat) (mk : Ring → BitVec n → Instr) (sel : BitVec 8) (imm : BitVec 16) :
    Except DecodeError Instr :=
  match ringOfSel sel, operandOfImm n imm with
  | .ok i, .ok x => .ok (mk i x)
  | _, _ => .error .reservedBits

/-- Format `I` (R87): `SEL = 0`. -/
def formatI (n : Nat) (mk : BitVec n → Instr) (sel : BitVec 8) (imm : BitVec 16) : Except DecodeError Instr :=
  match operandOfImm n imm with
  | .ok x => if sel = 0#8 then .ok (mk x) else .error .reservedBits
  | .error e => .error e

/-- Format `N` (R87): bits 23:0 all zero. -/
def formatN (i : Instr) (sel : BitVec 8) (imm : BitVec 16) : Except DecodeError Instr :=
  if sel = 0#8 ∧ imm = 0#16 then .ok i else .error .reservedBits

/-- The operation with the given fields (R87, R89). -/
def decodeFields (unit func : BitVec 4) (sel : BitVec 8) (imm : BitVec 16) : Except DecodeError Instr :=
  match unit.toNat, func.toNat with
  | 1, 0 => formatSI 12 .rfWrite sel imm
  | 1, 1 => formatSI 4 .rfRead sel imm
  | 1, 2 => formatSI 0 (fun i _ => .rfMean i) sel imm
  | 2, 0 => formatI 2 (fun ba => .qdEdge (ba.extractLsb' 1 1) (ba.extractLsb' 0 1)) sel imm
  | 2, 1 => formatN .qdRef sel imm
  | 2, 2 => formatN .qdYaw sel imm
  | 3, 0 => formatI 12 .smpRun sel imm
  | 4, 0 => formatN .ctlRun sel imm
  | 5, 0 => formatN .hsTakeS sel imm
  | 5, 1 => formatN .hsGiveC sel imm
  | 5, 2 => formatN .hsTakeC sel imm
  | 5, 3 => formatN .hsGiveS sel imm
  | 6, 0 => formatI 4 .setTgtH sel imm
  | 6, 1 => formatI 5 .setTgtY sel imm
  | u, _ => if 1 ≤ u ∧ u ≤ 6 then .error .unknownFunc else .error .unknownUnit

/-- Decoding is total: every word is an operation or is refused by name (R90). -/
def decode (w : Word) : Except DecodeError Instr :=
  decodeFields (unitField w) (funcField w) (selField w) (immField w)

/-- `SEL` of an instance: bit 16 of the word is `i` (R87, R88). -/
def Ring.sel : Ring → BitVec 8
  | .height => 0#8
  | .pot => 1#8

/-- The word of an operation (R87, R89). -/
def encode : Instr → Word
  | .rfWrite i v => packFields 1#4 0#4 i.sel (v.setWidth 16)
  | .rfRead i k => packFields 1#4 1#4 i.sel (k.setWidth 16)
  | .rfMean i => packFields 1#4 2#4 i.sel 0#16
  | .qdEdge b a => packFields 2#4 0#4 0#8 ((b ++ a).setWidth 16)
  | .qdRef => packFields 2#4 1#4 0#8 0#16
  | .qdYaw => packFields 2#4 2#4 0#8 0#16
  | .smpRun r => packFields 3#4 0#4 0#8 (r.setWidth 16)
  | .ctlRun => packFields 4#4 0#4 0#8 0#16
  | .hsTakeS => packFields 5#4 0#4 0#8 0#16
  | .hsGiveC => packFields 5#4 1#4 0#8 0#16
  | .hsTakeC => packFields 5#4 2#4 0#8 0#16
  | .hsGiveS => packFields 5#4 3#4 0#8 0#16
  | .setTgtH x => packFields 6#4 0#4 0#8 (x.setWidth 16)
  | .setTgtY y => packFields 6#4 1#4 0#8 (y.setWidth 16)

/-- The operation the decoder reads from the `nbits` bits of `w`; the bits above `nbits` are 0. Every operation is one
32-bit word on the `CMD` port (R86), stored nowhere (R75), so there is no byte layout between the two. -/
def decodeTableWord (nbits w : Nat) : Option Instr :=
  match decode (BitVec.ofNat 32 (w % 2 ^ nbits)) with
  | .ok i => some i
  | .error _ => none

end Sys2Proof
end

