-- ==== Sys2Proof/Machine/State.lean ====
section
/-! DEFINITION. The machine's state as plain data: every register of R38, the ports and trace of R39 and R40, and the
environment's stimuli and the two tasks' places in their programs; the reset state; the reasons a step can stop. -/

namespace Sys2Proof.Machine

/-- A ring filter of capacity `n`: its slots and its write index, the next slot to fill (R20, R21). -/
structure RingBuf (n : Nat) where
  slot : Vector RawSample n
  wr : Fin n
deriving DecidableEq, Repr

/-- One axis's PID state (R31): the integral accumulator `I` and the last error `LAST`. -/
structure Pid where
  i : Rat
  last : Int
deriving DecidableEq, Repr

/-- The handoff state `HS` (R33, R230). -/
inductive Handoff where
  /-- WaitingForSample. -/
  | wfs
  /-- Sampling. -/
  | smp
  /-- WaitingForControl. -/
  | wfc
  /-- Controlling. -/
  | ctl
deriving DecidableEq, Repr

/-- The two tasks, agents `S` and `C` of the `Fatal` event (R9, R256). -/
inductive Task where
  | sampler
  | control
deriving DecidableEq, Repr

/-- The four mailbox channels to the environment (R40, R98). -/
inductive Channel where
  | dispH
  | dispY
  | actH
  | actY
deriving DecidableEq, Repr

/-- The causes of a fatal halt (R255). -/
inductive Cause where
  | mailboxOverflow
  | dtNotPositive
deriving DecidableEq, Repr

/-- An externally visible action (R40). -/
inductive Event where
  | samplerRun
  | controlRun
  | pub (channel : Channel) (value : Int)
  | timerReload
  | refSeen
  | fatal (task : Task) (cause : Cause) (channel : Option Channel)
deriving DecidableEq, Repr

/-- The value on `STATUS` (R96). -/
inductive Status where
  | ok
  | blocked
  | illegalCmd
  | illegalOperand
  | protocol
  | halted
  | fatal
deriving DecidableEq, Repr

/-- The input ports an operation samples with `in(...)` (R39), `CMD` apart. -/
structure Ports where
  ticks : BitVec Config.timerW
  fullDH : Bool
  fullDY : Bool
  fullAH : Bool
  fullAY : Bool
deriving DecidableEq, Repr

/-- A task's next operation in its program (R70, R165, R196): take its gate, run its work, give the other gate. -/
inductive Stage where
  | take
  | run
  | give
deriving DecidableEq, Repr

/-- One thing the world outside the block does to it (R9, R259, R280). DESIGN CHOICE, safe: see log 1. -/
inductive Stimulus where
  /-- Somebody presents a command word, with these values on the other input ports (R39, R86, R263). -/
  | command (word : Word) (ports : Ports)
  /-- `SAMPLER` performs the next operation of its program; `r` is what the ADC returned, if that is `SMP_RUN` (R165). -/
  | sampler (r : RawSample) (ports : Ports)
  /-- `CONTROL` performs the next operation of its program (R196). -/
  | control (ports : Ports)
  /-- `ISR_QD` services a phase edge with the pin levels it sampled (R132, R259). -/
  | phaseEdge (b a : BitVec 1)
  /-- `ISR_REF` services a falling edge of the reference pin (R135, R259). -/
  | refPin
  /-- `ENV` starts a new session (R280). -/
  | reset
deriving DecidableEq, Repr

/-- The whole state. The first group is R38, register by register; then the output ports and the trace of R40, the input
ports of R39 as last sampled, and the model's own view of the agents. -/
structure State where
  /-- `RF0.SLOT`, `RF0.WR` (R20, R21). -/
  rf0 : RingBuf Config.n0
  /-- `RF1.SLOT`, `RF1.WR` (R20, R21). -/
  rf1 : RingBuf Config.n1
  /-- `QD.CNT`, 9 bits two's complement (R23). -/
  qdCnt : BitVec 9
  /-- `QD.PA` (R24). -/
  qdPa : BitVec 1
  /-- `QD.PB` (R24). -/
  qdPb : BitVec 1
  /-- `QD.REF_EN` (R25). -/
  qdRefEn : Bool
  /-- `SMP.GROUND` (R27). -/
  smpGround : BitVec 12
  /-- `SMP.CAL_DONE` (R28). -/
  smpCalDone : Bool
  /-- `CH_H`, unsigned 12 bits (R29). -/
  chH : BitVec 12
  /-- `CH_Y`, 9 bits two's complement (R29). -/
  chY : BitVec 9
  /-- `TGT_H`, 0..10 (R30). -/
  tgtH : Fin Config.hSteps
  /-- `TGT_Y`, 0..23 (R30). -/
  tgtY : Fin Config.ySteps
  /-- `PIDH.I`, `PIDH.LAST` (R31). -/
  pidH : Pid
  /-- `PIDY.I`, `PIDY.LAST` (R31). -/
  pidY : Pid
  /-- `CTL.LAST_TICKS` (R32). -/
  ctlLastTicks : BitVec Config.timerW
  /-- `HS` (R33). -/
  hs : Handoff
  /-- `FATAL_S` (R35). -/
  fatalS : Bool
  /-- `FATAL_C` (R35). -/
  fatalC : Bool
  /-- `FATAL_CAUSE_S`, 4 bits (R35, R255). -/
  fatalCauseS : BitVec 4
  /-- `FATAL_CAUSE_C`, 4 bits (R35, R255). -/
  fatalCauseC : BitVec 4
  /-- `RESP` of the last operation (R40, R96). -/
  resp : Resp
  /-- `STATUS` of the last operation (R40, R96). -/
  status : Status
  /-- The event trace, oldest first (R10, R40). -/
  trace : List Event
  /-- `CMD` as last presented (R39). -/
  cmd : Word
  /-- The other input ports as last sampled (R39). -/
  ports : Ports
  /-- What the agents do next, first thing first (R10, R69). The model's own: see log 1. -/
  inputs : List Stimulus
  /-- `SAMPLER`'s place in its program (R70, R165). The model's own: see log 5. -/
  samplerAt : Stage
  /-- `CONTROL`'s place in its program (R70, R196). The model's own: see log 5. -/
  controlAt : Stage
deriving DecidableEq, Repr

/-- A ring after reset: every slot holds `PREFILL`, the write index is 0 (R20, R21). -/
def RingBuf.reset (prefill : RawSample) (n : Nat) (h : 0 < n) : RingBuf n where
  slot := Vector.replicate n prefill
  wr := ⟨0, h⟩

/-- The state right after reset for given constants and `PREFILL` (R38 column "reset", R281): the trace of a session starts empty
(R280). `RESP`, `STATUS` and the input ports have no reset value in the spec: DESIGN CHOICE, see logs 3 and 4. Nothing is
presented yet, and both tasks stand at the top of their programs: see logs 2 and 5. -/
def State.resetWith (c : Config.Constants) (prefill : RawSample) : State where
  rf0 := RingBuf.reset prefill Config.n0 (by decide)
  rf1 := RingBuf.reset prefill Config.n1 (by decide)
  qdCnt := 0#9
  qdPa := 0#1
  qdPb := 0#1
  qdRefEn := true
  smpGround := 0#12
  smpCalDone := false
  chH := 0#12
  chY := 0#9
  tgtH := 0
  tgtY := 0
  pidH := { i := 0, last := 0 }
  pidY := { i := 0, last := 0 }
  ctlLastTicks := c.reloadValue
  hs := .wfs
  fatalS := false
  fatalC := false
  fatalCauseS := 0#4
  fatalCauseC := 0#4
  resp := 0#16
  status := .ok
  trace := []
  cmd := 0#32
  ports := { ticks := 0#32, fullDH := false, fullDY := false, fullAH := false, fullAY := false }
  inputs := []
  samplerAt := .take
  controlAt := .take

/-- The state right after reset with the configuration `p`: its `RELOAD_VALUE` and its `PREFILL` (R32, R38, R116, R281). -/
def State.resetFor (p : Config.Params) : State := State.resetWith p.const p.prefill

/-- The machine right after reset (R38, R280, R281): the source's constants, and `PREFILL` at its default. -/
def State.reset : State := State.resetWith Config.sourceConstants Config.prefill

/-- A fault that stops the machine. There is none: "every operation word, in every state, with every port value, has
exactly one outcome under fixed parameters" (93, part 1). The fatal halt of R256 stops a task, not the machine, and is
a next state (`raiseFatal`); the type has no constructor, so no step can end in a fault. Safe. -/
inductive Fault where
deriving DecidableEq, Repr

/-- A refusal of the model. The block's own refusals (R251 to R254) are next states, answered on `STATUS`. -/
inductive Refusal where
  /-- Raised only by an arm of `exec` whose operation has no meaning yet; there is no such arm. Safe. -/
  | notModelled (mnemonic : String)
deriving DecidableEq, Repr

/-- What a meaning answers. -/
abbrev Result := Host.Outcome State Fault Refusal

end Sys2Proof.Machine
end

