-- ==== Sys2Proof/Machine/Flags.lean ====
section
/-! DEFINITION. The encodings of the small state words, the two gates as views of `HS`, and the sticky halt bits. -/

namespace Sys2Proof.Machine

/-- The two-bit encoding of `HS` (R84, R230). -/
def Handoff.code : Handoff → BitVec 2
  | .wfs => 0b00#2
  | .smp => 0b01#2
  | .wfc => 0b10#2
  | .ctl => 0b11#2

/-- The three-bit encoding of `STATUS` (R96); 7 is reserved. -/
def Status.code : Status → BitVec 3
  | .ok => 0#3
  | .blocked => 1#3
  | .illegalCmd => 2#3
  | .illegalOperand => 3#3
  | .protocol => 4#3
  | .halted => 5#3
  | .fatal => 6#3

/-- The cause code written to `FATAL_CAUSE_<agent>` (R255); 0 is "none" and 6..15 are reserved. `MailboxOverflow` always
names a channel and `DtNotPositive` none. -/
def causeCode : Cause → Option Channel → BitVec 4
  | .mailboxOverflow, some .dispH => 1#4
  | .mailboxOverflow, some .dispY => 2#4
  | .mailboxOverflow, some .actH => 3#4
  | .mailboxOverflow, some .actY => 4#4
  | .mailboxOverflow, none => 0#4
  | .dtNotPositive, _ => 5#4

/-- `SampleReady` is available exactly when `HS = WFS` (R34, R85). -/
def sampleReady (s : State) : Bool := decide (s.hs = .wfs)

/-- `ControlDone` is available exactly when `HS = WFC` (R34, R85). -/
def controlDone (s : State) : Bool := decide (s.hs = .wfc)

/-- The task's sticky `FATAL` bit (R35). -/
def halted (task : Task) (s : State) : Bool :=
  match task with
  | .sampler => s.fatalS
  | .control => s.fatalC

/-- A mailbox channel is full at the moment of the step: the port `FULL_*` (R39, R258). -/
def portFull (channel : Channel) (s : State) : Bool :=
  match channel with
  | .dispH => s.ports.fullDH
  | .dispY => s.ports.fullDY
  | .actH => s.ports.fullAH
  | .actY => s.ports.fullAY

end Sys2Proof.Machine
end

