-- ==== Sys2Proof/Machine/Operands.lean ====
section
/-! DEFINITION. The values operations compute from registers, operands and the configuration record: the direction
lookup and counter normalisation, the degree, the mean, the height, the errors, the PID step and the duty. -/

namespace Sys2Proof.Machine

/-- The 4-bit direction index `(prevB<<3 | prevA<<2 | curB<<1 | curA)` (R81). -/
def dirIndex (pb pa b a : BitVec 1) : BitVec 4 := pb ++ pa ++ b ++ a

/-- The direction lookup `Dir(pb, pa, b, a)` (R131). -/
def direction (p : Config.Params) (pb pa b a : BitVec 1) : Config.Direction :=
  p.dirTable.get (dirIndex pb pa b a).toFin

/-- `Norm`: one correction of one revolution at most (R133). -/
def norm (p : Config.Params) (c : Int) : Int :=
  if c > p.const.cntHi then c - p.const.rev
  else if c < p.const.cntLo then c + p.const.rev
  else c

/-- `Deg(c) = c * 360/448`, exact (R136). -/
def degExact (p : Config.Params) (c : Int) : Rat := (c : Rat) * (p.const.degNum : Rat) / (p.const.degDen : Rat)

/-- `DEG_ROUND` (R137): an integer maps to itself, any other rational to one of its two neighbours, which the parameter
chooses. These are all the functions R137 allows. -/
def degRound (p : Config.Params) (q : Rat) : Int :=
  if q.den = 1 then q.num else if p.degRoundsUp q then q.floor + 1 else q.floor

/-- `YawDeg(c) = DEG_ROUND(Deg(c))` (R137). -/
def yawDeg (p : Config.Params) (c : Int) : Int := degRound p (degExact p c)

/-- The sum of all `N` slots, an integer with no wrap (R114). -/
def ringSum {n : Nat} (r : RingBuf n) : Nat := (r.slot.toList.map BitVec.toNat).sum

/-- The rounded mean `(2*sum + N) div (2*N)` (R114). -/
def ringMean {n : Nat} (r : RingBuf n) : Nat := (2 * ringSum r + n) / (2 * n)

/-- Position `k` of the in-order window, 0 the oldest: slot `(WR + k) mod N` (R112). -/
def ringElement {n : Nat} (r : RingBuf n) (k : Nat) : RawSample :=
  r.slot.get ⟨(r.wr.val + k) % n, Nat.mod_lt _ r.wr.pos⟩

/-- `readInOrder()`: the `N` elements of the window, oldest first (R113). -/
def ringWindow {n : Nat} (r : RingBuf n) : List RawSample := (List.range n).map (ringElement r)

/-- Height above ground: `ground > raw ? ground - raw : 0` (R162). -/
def heightAbove (ground raw : Nat) : Nat := if ground > raw then ground - raw else 0

/-- Elapsed ticks, the previous reading less the current one, a mathematical integer (R182). -/
def elapsed (last now : BitVec Config.timerW) : Int := (last.toNat : Int) - (now.toNat : Int)

/-- The height error `H_TABLE[ih] - hgt` (R185). -/
def heightErr (p : Config.Params) (ih : Fin Config.hSteps) (hgt : Int) : Int := p.const.hTable.get ih - hgt

/-- `parked = (ih = 0) and PARK_PRED(eh)` (R186). -/
def isParked (p : Config.Params) (ih : Fin Config.hSteps) (eh : Int) : Bool := decide (ih = 0) && p.parkPred eh

/-- `YawErr(T, C)`: the smaller of the direct and the wraparound candidate, the direct one on a tie, negated (R193). -/
def yawErr (t c : Int) : Int :=
  let e1 := t - c
  let e2 := t - (c + 360)
  if e2.natAbs < e1.natAbs then -e2 else -e1

/-- The base duty offset: 0 when parked (R186, R194). -/
def baseOffset (axis : Config.Axis) (parked : Bool) : Int := if parked then 0 else axis.offset

/-- The accumulator after this cycle: zeroed inside the deadband, then `e * dt` is added (R187, R188). -/
def integrate (num : Config.Num) (axis : Config.Axis) (i : Rat) (e : Int) (dt : Rat) : Rat :=
  num.add (if (e.natAbs : Int) < axis.db then 0 else i) (num.mul (e : Rat) dt)

/-- `PidStep` (R187): the axis's new state and the unclamped output `u`. The derivative is previous error less current
error over `dt` (R189), and the integral term uses the accumulator with this cycle's term in it. -/
def pidStep (num : Config.Num) (axis : Config.Axis) (parked : Bool) (e : Int) (dt : Rat) (st : Pid) : Pid × Rat :=
  let i := integrate num axis st.i e dt
  let d := num.div ((st.last - e : Int) : Rat) dt
  let u := num.add (num.add (num.add (baseOffset axis parked : Rat) (num.mul axis.kp (e : Rat))) (num.mul axis.kd d))
    (num.mul axis.ki i)
  ({ i := i, last := e }, u)

/-- An integer brought into `lo..hi`. -/
def clampInt (x lo hi : Int) : Int := min (max x lo) hi

/-- `clamp(x, lo, hi) = min(max(x, lo), hi)` on rationals (R6). -/
def clampRat (x lo hi : Rat) : Rat := min (max x lo) hi

/-- `DUTY_ROUND` (R191, decision D17): an integer maps to itself, `[0, 85]` into 0..85 and `[0, 99]` into 0..99, and
within that the parameter chooses. These are all the functions D17 allows on `[0, 99]`. -/
def dutyRound (p : Config.Params) (q : Rat) : Int :=
  if q.den = 1 then q.num
  else if q ≤ (p.const.yaw.ceil : Rat) then clampInt (p.dutyRaw q) p.const.dutyMin p.const.yaw.ceil
  else clampInt (p.dutyRaw q) p.const.dutyMin p.const.dutyMax

/-- `Duty(u, ceil) = DUTY_ROUND(min(clamp(u, 0, 99), ceil))` (R191). -/
def duty (p : Config.Params) (u : Rat) (ceil : Int) : Int :=
  dutyRound p (min (clampRat u (p.const.dutyMin : Rat) (p.const.dutyMax : Rat)) (ceil : Rat))

end Sys2Proof.Machine
end

