-- ==== Sys2Proof/Machine/Ops.lean ====
section
/-! DEFINITION. The named operations: the storage spaces, answering, emitting an event, publishing, the fatal halt and
the reset event that alone ends it. -/

namespace Sys2Proof.Machine

/-- The configuration the machine runs with: the source's constants, every open parameter of R5 at its opaque value
(logs 8 to 13), and `PREFILL` and `NUM` at the spec's defaults (logs 7 and 14). -/
def params : Config.Params where
  const := Config.sourceConstants
  sizesFit := rfl
  prefill := Config.prefill
  dirTable := Config.dirTable
  degRoundsUp := Config.degRoundsUp
  yTable := Config.yTable
  parkPred := Config.parkPred
  dutyRaw := Config.dutyRaw
  dtScale := Config.dtScale
  num := Config.exactNum

/-- The storage spaces of R60. -/
inductive Space where
  | rf0
  | rf1
  | dirTable
  | hTable
  | yTable
deriving DecidableEq, Repr

/-- `MemRead(space, i)`: the whole word at index `i`, as an integer; nothing outside the index range (R8, R60). -/
def memRead (p : Config.Params) (s : State) (space : Space) (i : Nat) : Option Int :=
  match space with
  | .rf0 => s.rf0.slot[i]?.map fun w => (w.toNat : Int)
  | .rf1 => s.rf1.slot[i]?.map fun w => (w.toNat : Int)
  | .dirTable => p.dirTable[i]?.map p.const.delta
  | .hTable => p.const.hTable[i]?
  | .yTable => p.yTable[i]?

/-- `MemWrite(RFi, i, v)`: the whole word at index `i` (R8, R66); no operation writes a table. -/
def ringStore {n : Nat} (r : RingBuf n) (i : Nat) (v : RawSample) : RingBuf n :=
  { r with slot := r.slot.setIfInBounds i v }

/-- The write index one further, modulo the capacity (R21, R111). -/
def ringNext {n : Nat} (r : RingBuf n) : Fin n := ⟨(r.wr.val + 1) % n, Nat.mod_lt _ r.wr.pos⟩

/-- One write into a ring: the word at the write index, then the index advances (R111). -/
def ringPush {n : Nat} (r : RingBuf n) (v : RawSample) : RingBuf n :=
  { ringStore r r.wr.val v with wr := ringNext r }

/-- `RF_WRITE i, v` on the selected instance (R110, R111). -/
def pushSample (i : Ring) (v : RawSample) (s : State) : State :=
  match i with
  | .height => { s with rf0 := ringPush s.rf0 v }
  | .pot => { s with rf1 := ringPush s.rf1 v }

/-- The mean of the selected instance (R114). -/
def meanOf (i : Ring) (s : State) : Nat :=
  match i with
  | .height => ringMean s.rf0
  | .pot => ringMean s.rf1

/-- Position `k` of the selected instance's window (R112). -/
def elementOf (i : Ring) (k : Nat) (s : State) : RawSample :=
  match i with
  | .height => ringElement s.rf0 k
  | .pot => ringElement s.rf1 k

/-- `emit Ev`: append one event to the trace (R8, R40). -/
def emit (e : Event) (s : State) : State := { s with trace := s.trace ++ [e] }

/-- Put a status and a response on the output ports (R96). -/
def answer (status : Status) (resp : Resp) (s : State) : State := { s with status := status, resp := resp }

/-- `respond(v)`: status OK (R8). -/
def respond (v : Resp) (s : State) : State := answer .ok v s

/-- `refuse Reason` and `block`: the operation ends with no state change but its status; `RESP` is 0 for every status
other than OK (R8, R96, R251 to R254). -/
def turnAway (reason : Status) (s : State) : State := answer reason 0#16 s

/-- `zext_16` of a value (R8, R96). -/
def zext16 (v : Nat) : Resp := BitVec.ofNat 16 v

/-- `sext_16` of an integer (R8, R96). -/
def sext16 (v : Int) : Resp := BitVec.ofInt 16 v

/-- `raise Fatal(agent, cause, channel)`, the one exception of the block (R256): the task's sticky bit and cause code are
written, the event is emitted, `STATUS` is FATAL and `RESP` 0. Nothing is saved, control goes nowhere, `HS` and the other
task's bit are unchanged, and everything written before stays. -/
def raiseFatal (task : Task) (cause : Cause) (channel : Option Channel) (s : State) : State :=
  match task with
  | .sampler =>
    answer .fatal 0#16 (emit (.fatal task cause channel)
      { s with fatalS := true, fatalCauseS := causeCode cause channel })
  | .control =>
    answer .fatal 0#16 (emit (.fatal task cause channel)
      { s with fatalC := true, fatalCauseC := causeCode cause channel })

/-- There is no return from a fatal halt; only the reset event clears it (R257, R280). Reset sets every register to its
reset value, the slots to the configuration's `PREFILL`, which no reset changes (R282), and empties the trace; it "has no
command word and no status", so it answers nothing on the output ports; what belongs to the environment, its ports and
what it does next, is not reset (R282). Both tasks start their programs again: see log 6. -/
def resetSessionWith (p : Config.Params) (s : State) : State :=
  { State.resetFor p with cmd := s.cmd, ports := s.ports, status := s.status, resp := s.resp, inputs := s.inputs }

/-- The reset event with the machine's own configuration. -/
def resetSession (s : State) : State := resetSessionWith params s

/-- Deliver one value to a mailbox, or raise the fatal halt if the mailbox is full at the moment of the step; what
follows the delivery is `andThen` (R164, R195, R258). -/
def publish (task : Task) (channel : Channel) (v : Int) (andThen : State → State) (s : State) : State :=
  if portFull channel s then raiseFatal task .mailboxOverflow (some channel) s
  else andThen (emit (.pub channel v) s)

end Sys2Proof.Machine
end

