-- ==== Sys2Proof/Machine/ControlLoop.lean ====
section
/-! DEFINITION. The Control Loop's work for one cycle, `CTL_RUN` (R180 to R197), and the setpoint deliveries
`SET_TGT_H`, `SET_TGT_Y` (R198, R199). -/

namespace Sys2Proof.Machine

/-- `dt = el * DT_SCALE` for the reading now on `TICKS` (R182). -/
def cycleDt (p : Config.Params) (s : State) : Rat :=
  p.num.mul (elapsed s.ctlLastTicks s.ports.ticks : Rat) p.dtScale

/-- The end of step 2 of `CTL_RUN`: remember the reading, or reload the counter when it is below the threshold (R183). -/
def noteTicks (p : Config.Params) (s : State) : State :=
  if s.ports.ticks.toNat < p.const.reloadThreshold then
    { emit .timerReload s with ctlLastTicks := p.const.reloadValue }
  else { s with ctlLastTicks := s.ports.ticks }

/-- The height error of this cycle (R180 step 3, R185). -/
def cycleHeightErr (p : Config.Params) (s : State) : Int := heightErr p s.tgtH s.chH.toNat

/-- The yaw error of this cycle (R180 step 8, R193). -/
def cycleYawErr (p : Config.Params) (s : State) : Int := yawErr (p.yTable.get s.tgtY) s.chY.toInt

/-- The parked condition of this cycle, computed from the height axis and used by both axes (R186, R194). -/
def cycleParked (p : Config.Params) (s : State) : Bool := isParked p s.tgtH (cycleHeightErr p s)

/-- The height axis's `PidStep` (R180 step 5): its new state and its unclamped output. -/
def heightStep (p : Config.Params) (dt : Rat) (s : State) : Pid × Rat :=
  pidStep p.num p.const.height (cycleParked p s) (cycleHeightErr p s) dt s.pidH

/-- The yaw axis's `PidStep` (R180 step 10). -/
def yawStep (p : Config.Params) (dt : Rat) (s : State) : Pid × Rat :=
  pidStep p.num p.const.yaw (cycleParked p s) (cycleYawErr p s) dt s.pidY

/-- The height duty (R180 step 6, R191). -/
def heightDuty (p : Config.Params) (dt : Rat) (s : State) : Int := duty p (heightStep p dt s).2 p.const.height.ceil

/-- The yaw duty (R180 step 11, R191). -/
def yawDuty (p : Config.Params) (dt : Rat) (s : State) : Int := duty p (yawStep p dt s).2 p.const.yaw.ceil

/-- The yaw axis, steps 8 to 12 of `CTL_RUN` (R180). -/
def ctlYaw (p : Config.Params) (dt : Rat) (s : State) : State :=
  publish .control .actY (yawDuty p dt s) (respond 0#16) { s with pidY := (yawStep p dt s).1 }

/-- Both axes, steps 3 to 12 of `CTL_RUN`, height first (R180). -/
def ctlAxes (p : Config.Params) (dt : Rat) (s : State) : State :=
  publish .control .actH (heightDuty p dt s) (ctlYaw p dt) { s with pidH := (heightStep p dt s).1 }

/-- `CTL_RUN` with the configuration `p` (R180): the checks in the order of R261, then the steps. -/
def ctlRunWith (p : Config.Params) (s : State) : State :=
  if s.fatalC then turnAway .halted s
  else if s.hs ≠ .ctl then turnAway .protocol s
  else if elapsed s.ctlLastTicks s.ports.ticks ≤ 0 then
    raiseFatal .control .dtNotPositive none (emit .controlRun s)
  else ctlAxes p (cycleDt p s) (noteTicks p (emit .controlRun s))

/-- `CTL_RUN` (R180). -/
def execCtlRun (s : State) : Result := .next (ctlRunWith params s)

/-- `SET_TGT_H x` (R198). -/
def execSetTgtH (x : BitVec 4) (s : State) : Result :=
  if h : x.toNat < Config.hSteps then .next (respond 0#16 { s with tgtH := ⟨x.toNat, h⟩ })
  else .next (turnAway .illegalOperand s)

/-- `SET_TGT_Y y` (R199). -/
def execSetTgtY (y : BitVec 5) (s : State) : Result :=
  if h : y.toNat < Config.ySteps then .next (respond 0#16 { s with tgtY := ⟨y.toNat, h⟩ })
  else .next (turnAway .illegalOperand s)

end Sys2Proof.Machine
end

