-- ==== Sys2Proof/Machine/Handoff.lean ====
section
/-! DEFINITION. The handoff arbiter's four operations (R230 to R240). -/

namespace Sys2Proof.Machine

/-- A task takes its gate: refused if the task is halted, else the token moves from `src` to `dst`, and the take blocks
when the gate is held (R231, R233, R237). -/
def takeGate (task : Task) (src dst : Handoff) (s : State) : State :=
  if halted task s then turnAway .halted s
  else if s.hs = src then respond 0#16 { s with hs := dst }
  else turnAway .blocked s

/-- A task gives the other's gate: refused if the task is halted or does not hold the token (R232, R234). -/
def giveGate (task : Task) (src dst : Handoff) (s : State) : State :=
  if halted task s then turnAway .halted s
  else if s.hs = src then respond 0#16 { s with hs := dst }
  else turnAway .protocol s

/-- `HS_TAKE_S`: `WFS -> SMP` (R231). -/
def execHsTakeS (s : State) : Result := .next (takeGate .sampler .wfs .smp s)

/-- `HS_GIVE_C`: `SMP -> WFC` (R232). -/
def execHsGiveC (s : State) : Result := .next (giveGate .sampler .smp .wfc s)

/-- `HS_TAKE_C`: `WFC -> CTL` (R233). -/
def execHsTakeC (s : State) : Result := .next (takeGate .control .wfc .ctl s)

/-- `HS_GIVE_S`: `CTL -> WFS` (R234). -/
def execHsGiveS (s : State) : Result := .next (giveGate .control .ctl .wfs s)

end Sys2Proof.Machine
end

