-- ==== Sys2Proof/Machine/QuadratureDecoder.lean ====
section
/-! DEFINITION. The quadrature decoder's operations: `QD_EDGE`, `QD_REF`, `QD_YAW` (R130 to R142), over any
configuration record and at the machine's own. -/

namespace Sys2Proof.Machine

/-- The counter after an edge to the pair `(b, a)`: `Norm(QD.CNT + Dir(QD.PB, QD.PA, b, a))` (R82, R132). -/
def countEdge (p : Config.Params) (b a : BitVec 1) (s : State) : Int :=
  norm p (s.qdCnt.toInt + p.const.delta (direction p s.qdPb s.qdPa b a))

/-- `QD_EDGE b, a` with the configuration `p` (R132). The normalised counter always fits its 9 bits: see log 17. -/
def qdEdgeWith (p : Config.Params) (b a : BitVec 1) (s : State) : State :=
  respond 0#16 { s with qdCnt := BitVec.ofInt 9 (countEdge p b a s), qdPa := a, qdPb := b }

/-- `QD_EDGE b, a` (R132). -/
def execQdEdge (b a : BitVec 1) (s : State) : Result := .next (qdEdgeWith params b a s)

/-- `QD_REF` (R135): one-shot; it never touches the counter. -/
def execQdRef (s : State) : Result :=
  .next (respond 0#16 (if s.qdRefEn then emit .refSeen { s with qdRefEn := false } else s))

/-- The yaw accessor `get_current_yaw()` with the configuration `p`: `YawDeg(QD.CNT)` (R138). -/
def currentYaw (p : Config.Params) (s : State) : Int := yawDeg p s.qdCnt.toInt

/-- `QD_YAW` with the configuration `p` (R138). -/
def qdYawWith (p : Config.Params) (s : State) : State := respond (sext16 (currentYaw p s)) s

/-- `QD_YAW` (R138). -/
def execQdYaw (s : State) : Result := .next (qdYawWith params s)

end Sys2Proof.Machine
end

