-- ==== Sys2Proof/Machine/RingFilter.lean ====
section
/-! DEFINITION. The ring filter's operations: `RF_WRITE`, `RF_READ`, `RF_MEAN` (R110 to R118). -/

namespace Sys2Proof.Machine

/-- `RF_WRITE i, v` (R111). -/
def execRfWrite (i : Ring) (v : RawSample) (s : State) : Result :=
  .next (respond 0#16 (pushSample i v s))

/-- `RF_READ i, k` (R112): IllegalOperand when `k ≥ N`, else the window's element `k`. -/
def execRfRead (i : Ring) (k : BitVec 4) (s : State) : Result :=
  if i.capacity ≤ k.toNat then .next (turnAway .illegalOperand s)
  else .next (respond (zext16 (elementOf i k.toNat s).toNat) s)

/-- `RF_MEAN i` (R114). -/
def execRfMean (i : Ring) (s : State) : Result :=
  .next (respond (zext16 (meanOf i s)) s)

end Sys2Proof.Machine
end

