-- ==== Sys2Proof/Machine/Sampler.lean ====
section
/-! DEFINITION. The Sampler's work for one cycle: `SMP_RUN` (R160 to R167). -/

namespace Sys2Proof.Machine

/-- Step 3 of `SMP_RUN`: capture the ground once, on a cycle whose target height index is zero (R161). -/
def calibrate (m : Nat) (s : State) : State :=
  if s.smpCalDone = false ∧ s.tgtH = 0 then { s with smpGround := BitVec.ofNat 12 m, smpCalDone := true } else s

/-- Steps 1 to 3 of `SMP_RUN`: the sample enters ring 0 and the ground may be captured from its mean (R160). -/
def smpSample (r : RawSample) (s : State) : State :=
  let s1 := pushSample .height r s
  calibrate (meanOf .height s1) s1

/-- The height of step 4, read from the ground register and ring 0 after steps 1 to 3: the height above ground of this
cycle's mean (R162). -/
def smpHeight (s : State) : Nat := heightAbove s.smpGround.toNat (meanOf .height s)

/-- Steps 1 to 6 of `SMP_RUN` (R160): sample, mean, ground, then height and yaw go to the Control Loop's pair. -/
def smpWork (p : Config.Params) (r : RawSample) (s : State) : State :=
  let s3 := smpSample r s
  { s3 with chH := BitVec.ofNat 12 (smpHeight s3), chY := BitVec.ofInt 9 (currentYaw p s3) }

/-- Steps 7 and 8 of `SMP_RUN` (R160): the two display mailboxes, height first. -/
def smpPublish (p : Config.Params) (s : State) : State :=
  publish .sampler .dispH (smpHeight s) (publish .sampler .dispY (currentYaw p s) (respond 0#16)) s

/-- `SMP_RUN r` with the configuration `p` (R160): the checks in the order of R261, then the steps. -/
def smpRunWith (p : Config.Params) (r : RawSample) (s : State) : State :=
  if s.fatalS then turnAway .halted s
  else if s.hs ≠ .smp then turnAway .protocol s
  else smpPublish p (smpWork p r (emit .samplerRun s))

/-- `SMP_RUN r` (R160). -/
def execSmpRun (r : RawSample) (s : State) : Result := .next (smpRunWith params r s)

end Sys2Proof.Machine
end

