-- ==== Sys2Proof/Machine/Dispatch.lean ====
section
/-! DEFINITION. One arm per operation of the opcode map (R89). -/

namespace Sys2Proof.Machine

def exec (i : Instr) (s : State) : Host.Outcome State Fault Refusal :=
  match i with
  | .rfWrite r v => Sys2Proof.Machine.execRfWrite r v s
  | .rfRead r k => Sys2Proof.Machine.execRfRead r k s
  | .rfMean r => Sys2Proof.Machine.execRfMean r s
  | .qdEdge b a => Sys2Proof.Machine.execQdEdge b a s
  | .qdRef => Sys2Proof.Machine.execQdRef s
  | .qdYaw => Sys2Proof.Machine.execQdYaw s
  | .smpRun r => Sys2Proof.Machine.execSmpRun r s
  | .ctlRun => Sys2Proof.Machine.execCtlRun s
  | .hsTakeS => Sys2Proof.Machine.execHsTakeS s
  | .hsGiveC => Sys2Proof.Machine.execHsGiveC s
  | .hsTakeC => Sys2Proof.Machine.execHsTakeC s
  | .hsGiveS => Sys2Proof.Machine.execHsGiveS s
  | .setTgtH x => Sys2Proof.Machine.execSetTgtH x s
  | .setTgtY y => Sys2Proof.Machine.execSetTgtY y s

end Sys2Proof.Machine
end

