-- ==== Sys2Proof/Machine/Fetch.lean ====
section
/-! DEFINITION. How a stimulus becomes an operation: the word it puts on `CMD`, the ports it sets, the tasks' programs,
and performing the word (R9, R39, R70, R90, R165, R196). -/

namespace Sys2Proof.Machine

/-- `SAMPLER`'s program: `HS_TAKE_S`, `SMP_RUN r`, `HS_GIVE_C` (R70, R165). -/
def samplerOp (stage : Stage) (r : RawSample) : Instr :=
  match stage with
  | .take => .hsTakeS
  | .run => .smpRun r
  | .give => .hsGiveC

/-- `CONTROL`'s program: `HS_TAKE_C`, `CTL_RUN`, `HS_GIVE_S` (R70, R196). -/
def controlOp (stage : Stage) : Instr :=
  match stage with
  | .take => .hsTakeC
  | .run => .ctlRun
  | .give => .hsGiveS

/-- The next place in a task's program, cyclically (R70). -/
def Stage.next : Stage → Stage
  | .take => .run
  | .run => .give
  | .give => .take

/-- The word a stimulus puts on `CMD`; the reset event has none (R280). -/
def stimulusWord (s : State) : Stimulus → Option Word
  | .command w _ => some w
  | .sampler r _ => some (encode (samplerOp s.samplerAt r))
  | .control _ => some (encode (controlOp s.controlAt))
  | .phaseEdge b a => some (encode (.qdEdge b a))
  | .refPin => some (encode .qdRef)
  | .reset => none

/-- The port values a stimulus comes with; an interrupt samples none and leaves them (R39). -/
def stimulusPorts (s : State) : Stimulus → Ports
  | .command _ ports => ports
  | .sampler _ ports => ports
  | .control ports => ports
  | .phaseEdge _ _ => s.ports
  | .refPin => s.ports
  | .reset => s.ports

/-- The input ports as an operation sees them (R39). -/
def latch (w : Word) (ports : Ports) (s : State) : State := { s with cmd := w, ports := ports }

/-- Perform the word on `CMD`: the operation it decodes to, with the meaning `ex` of operations, or the refusal
IllegalCommand (R90, R251). -/
def performBy (ex : Instr → State → Result) (s : State) : Result :=
  match decode s.cmd with
  | .ok i => ex i s
  | .error _ => .next (turnAway .illegalCmd s)

/-- A task that performed its operation goes on in its program; one that was blocked, refused or halted does not (R70,
R237, R253). DESIGN CHOICE for the refusals: see log 5. -/
def advanceTask (x : Stimulus) (s : State) : State :=
  match x with
  | .sampler _ _ => if s.status = .ok then { s with samplerAt := s.samplerAt.next } else s
  | .control _ => if s.status = .ok then { s with controlAt := s.controlAt.next } else s
  | .command _ _ => s
  | .phaseEdge _ _ => s
  | .refPin => s
  | .reset => s

/-- One stimulus, one step: the reset event (R280), or one whole operation (R10, R64). The parameters of R5 are arguments:
the record a reset takes `PREFILL` from, and the operations' meaning. -/
def serveBy (p : Config.Params) (ex : Instr → State → Result) (x : Stimulus) (s : State) : Result :=
  match stimulusWord s x with
  | none => .next (resetSessionWith p s)
  | some w =>
    match performBy ex (latch w (stimulusPorts s x) s) with
    | .next t => .next (advanceTask x t)
    | .fault f => .fault f
    | .refused r => .refused r

/-- One step: the first stimulus in the list is taken and served (R10, R69). With nothing presented the block does
nothing: DESIGN CHOICE, safe, see log 1. -/
def stepBy (p : Config.Params) (ex : Instr → State → Result) (s : State) : Result :=
  match s.inputs with
  | [] => .next s
  | x :: rest => serveBy p ex x { s with inputs := rest }

end Sys2Proof.Machine
end

