-- ==== Sys2Proof/Machine/Step.lean ====
section
/-! DEFINITION. One step of the machine, and placing a word where the next step takes it from. -/

namespace Sys2Proof.Machine

/-- One step of the machine: `stepBy` with its own configuration record and its own operations. -/
def step (s : State) : Host.Outcome State Fault Refusal := stepBy params exec s

/-- `s` with the word presented next on `CMD`, the other ports as they stand (R39, R86). See log 2. -/
def State.withFetchWord (s : State) (nbits w : Nat) : State :=
  { s with inputs := .command (BitVec.ofNat 32 (w % 2 ^ nbits)) s.ports :: s.inputs }

end Sys2Proof.Machine
end

