-- ==== Sys2Proof/Safety.lean ====
section
/-! DEFINITION. The terms claims are stated in: legal values, who may write which register, the order of task runs, the
halted pipeline, and fair schedules. -/

namespace Sys2Proof.Machine

/-- `QD.CNT` is in its legal range -223..224 (R23, R134). -/
def CounterLegal (s : State) : Prop := -223 ≤ s.qdCnt.toInt ∧ s.qdCnt.toInt ≤ 224

/-- A published value is in its channel's range (R98). -/
def Event.legal : Event → Prop
  | .pub .dispH v => 0 ≤ v ∧ v ≤ 4095
  | .pub .dispY v => -180 ≤ v ∧ v ≤ 180
  | .pub .actH v => 0 ≤ v ∧ v ≤ 99
  | .pub .actY v => 0 ≤ v ∧ v ≤ 85
  | .samplerRun => True
  | .controlRun => True
  | .timerReload => True
  | .refSeen => True
  | .fatal _ _ _ => True

/-- Every published value of the session so far is in its channel's range (R98, R201). -/
def TraceLegal (s : State) : Prop := ∀ e ∈ s.trace, e.legal

/-- The ground register is 0 until the ground is captured (R27, R162). -/
def UncalibratedIsZero (s : State) : Prop := s.smpCalDone = false → s.smpGround = 0#12

/-- `PIDH.LAST` is in its reachable range -4095..1000 (R38). -/
def HeightErrorLegal (s : State) : Prop := -4095 ≤ s.pidH.last ∧ s.pidH.last ≤ 1000

/-- The fault records agree with the halt bits and hold only the codes of their own task (R255), and a halted task still
holds the token (R239), so at most one task is halted (R257). -/
def FaultRecordsAgree (s : State) : Prop :=
  (s.fatalS = false → s.fatalCauseS = 0#4) ∧ (s.fatalS = true → s.fatalCauseS = 1#4 ∨ s.fatalCauseS = 2#4) ∧
  (s.fatalC = false → s.fatalCauseC = 0#4) ∧
  (s.fatalC = true → s.fatalCauseC = 3#4 ∨ s.fatalCauseC = 4#4 ∨ s.fatalCauseC = 5#4) ∧
  (s.fatalS = true → s.hs = .smp) ∧ (s.fatalC = true → s.hs = .ctl)

/-- The registers of R38, each under its own name. -/
inductive Reg where
  | rf0Slot | rf0Wr | rf1Slot | rf1Wr
  | qdCnt | qdPa | qdPb | qdRefEn
  | smpGround | smpCalDone | chH | chY
  | tgtH | tgtY
  | pidHI | pidHLast | pidYI | pidYLast | ctlLastTicks
  | hs | fatalS | fatalC | fatalCauseS | fatalCauseC
deriving DecidableEq, Repr

/-- The register holds the same value in both states. -/
def Reg.same : Reg → State → State → Prop
  | .rf0Slot, s, t => t.rf0.slot = s.rf0.slot
  | .rf0Wr, s, t => t.rf0.wr = s.rf0.wr
  | .rf1Slot, s, t => t.rf1.slot = s.rf1.slot
  | .rf1Wr, s, t => t.rf1.wr = s.rf1.wr
  | .qdCnt, s, t => t.qdCnt = s.qdCnt
  | .qdPa, s, t => t.qdPa = s.qdPa
  | .qdPb, s, t => t.qdPb = s.qdPb
  | .qdRefEn, s, t => t.qdRefEn = s.qdRefEn
  | .smpGround, s, t => t.smpGround = s.smpGround
  | .smpCalDone, s, t => t.smpCalDone = s.smpCalDone
  | .chH, s, t => t.chH = s.chH
  | .chY, s, t => t.chY = s.chY
  | .tgtH, s, t => t.tgtH = s.tgtH
  | .tgtY, s, t => t.tgtY = s.tgtY
  | .pidHI, s, t => t.pidH.i = s.pidH.i
  | .pidHLast, s, t => t.pidH.last = s.pidH.last
  | .pidYI, s, t => t.pidY.i = s.pidY.i
  | .pidYLast, s, t => t.pidY.last = s.pidY.last
  | .ctlLastTicks, s, t => t.ctlLastTicks = s.ctlLastTicks
  | .hs, s, t => t.hs = s.hs
  | .fatalS, s, t => t.fatalS = s.fatalS
  | .fatalC, s, t => t.fatalC = s.fatalC
  | .fatalCauseS, s, t => t.fatalCauseS = s.fatalCauseS
  | .fatalCauseC, s, t => t.fatalCauseC = s.fatalCauseC

/-- R38's column "writer (operation)": the registers an operation may write. -/
def writes : Instr → List Reg
  | .rfWrite .height _ => [.rf0Slot, .rf0Wr]
  | .rfWrite .pot _ => [.rf1Slot, .rf1Wr]
  | .rfRead _ _ => []
  | .rfMean _ => []
  | .qdEdge _ _ => [.qdCnt, .qdPa, .qdPb]
  | .qdRef => [.qdRefEn]
  | .qdYaw => []
  | .smpRun _ => [.rf0Slot, .rf0Wr, .smpGround, .smpCalDone, .chH, .chY, .fatalS, .fatalCauseS]
  | .ctlRun => [.pidHI, .pidHLast, .pidYI, .pidYLast, .ctlLastTicks, .fatalC, .fatalCauseC]
  | .hsTakeS => [.hs]
  | .hsGiveC => [.hs]
  | .hsTakeC => [.hs]
  | .hsGiveS => [.hs]
  | .setTgtH _ => [.tgtH]
  | .setTgtY _ => [.tgtY]

/-- The agents of R9. -/
inductive Agent where
  | isrQd
  | isrRef
  | sampler
  | control
  | env
deriving DecidableEq, Repr

/-- The agent a stimulus is a step of (R9, R280). -/
def Stimulus.agent : Stimulus → Agent
  | .command _ _ => .env
  | .sampler _ _ => .sampler
  | .control _ => .control
  | .phaseEdge _ _ => .isrQd
  | .refPin => .isrRef
  | .reset => .env

/-- R41: the registers that belong to an agent; `HS` is shared by the two tasks. `RF1.*` belongs to whoever issues
`RF_WRITE 1`: no task's program does (R165, R196), so that is `ENV`. Each halt record is with the task whose operations
write it (R38). Ownership is a discipline, not a check (R263): `ENV` can present an operation that breaks it. See log 27. -/
def Agent.owns : Agent → Reg → Bool
  | .isrQd, r => r ∈ [.qdCnt, .qdPa, .qdPb, .qdRefEn]
  | .isrRef, r => r ∈ [.qdCnt, .qdPa, .qdPb, .qdRefEn]
  | .sampler, r => r ∈ [.rf0Slot, .rf0Wr, .smpGround, .smpCalDone, .chH, .chY, .hs, .fatalS, .fatalCauseS]
  | .control, r => r ∈ [.pidHI, .pidHLast, .pidYI, .pidYLast, .ctlLastTicks, .hs, .fatalC, .fatalCauseC]
  | .env, r => r ∈ [.tgtH, .tgtY, .rf1Slot, .rf1Wr]

/-- The stimulus keeps the discipline of R41: an outside command writes none but `ENV`'s registers, and no new session
starts. A direct `RF_WRITE 0` "is legal for the hardware but breaks this ownership". -/
def keepsOwnership : Stimulus → Bool
  | .command w _ =>
    match decode w with
    | .ok i => (writes i).all Agent.env.owns
    | .error _ => true
  | .sampler _ _ => true
  | .control _ => true
  | .phaseEdge _ _ => true
  | .refPin => true
  | .reset => false

/-- The six operations the two tasks' programs are made of (R70, R253). -/
def isTaskOp : Instr → Bool
  | .smpRun _ => true
  | .ctlRun => true
  | .hsTakeS => true
  | .hsGiveC => true
  | .hsTakeC => true
  | .hsGiveS => true
  | .rfWrite _ _ => false
  | .rfRead _ _ => false
  | .rfMean _ => false
  | .qdEdge _ _ => false
  | .qdRef => false
  | .qdYaw => false
  | .setTgtH _ => false
  | .setTgtY _ => false

/-- The stimulus leaves the tasks' operations to the tasks' own programs (R70, R236): no outside command is one. -/
def followsPrograms : Stimulus → Bool
  | .command w _ =>
    match decode w with
    | .ok i => !isTaskOp i
    | .error _ => true
  | .sampler _ _ => true
  | .control _ => true
  | .phaseEdge _ _ => true
  | .refPin => true
  | .reset => true

/-- The task whose run an event marks (R40). -/
def Event.taskRun : Event → Option Task
  | .samplerRun => some .sampler
  | .controlRun => some .control
  | .pub _ _ => none
  | .timerReload => none
  | .refSeen => none
  | .fatal _ _ _ => none

/-- The trace restricted to `SamplerRun` and `ControlRun` (R236, S7). -/
def taskRuns (trace : List Event) : List Task := trace.filterMap Event.taskRun

/-- Strict ping-pong: entry `2j` is `SamplerRun`, entry `2j+1` is `ControlRun` (R236, S7). -/
def StrictPingPong (runs : List Task) : Prop :=
  ∀ k, (h : k < runs.length) → runs[k] = if k % 2 = 0 then .sampler else .control

/-- The runs so far alternate, and their number, `HS` and the tasks' places in their programs agree (R236). -/
def Alternation (s : State) : Prop :=
  StrictPingPong (taskRuns s.trace) ∧
  match s.hs with
  | .wfs => s.samplerAt = .take ∧ s.controlAt = .take ∧ (taskRuns s.trace).length % 2 = 0
  | .smp => s.controlAt = .take ∧
      ((s.samplerAt = .run ∧ ((taskRuns s.trace).length % 2 = 0 ∨ s.fatalS = true)) ∨
        (s.samplerAt = .give ∧ (taskRuns s.trace).length % 2 = 1))
  | .wfc => s.samplerAt = .take ∧ s.controlAt = .take ∧ (taskRuns s.trace).length % 2 = 1
  | .ctl => s.samplerAt = .take ∧
      ((s.controlAt = .run ∧ ((taskRuns s.trace).length % 2 = 1 ∨ s.fatalC = true)) ∨
        (s.controlAt = .give ∧ (taskRuns s.trace).length % 2 = 0))

/-- The pipeline after a fatal halt: the halted task holds the token (R239, R298). -/
def PipelineStopped (s : State) : Prop := (s.fatalS = true ∧ s.hs = .smp) ∨ (s.fatalC = true ∧ s.hs = .ctl)

/-- The task's next operation is enabled: it would be neither refused nor blocked (R10, R253, R254, R237), and
`SMP_RUN` has the reading it needs, `adc` (R166, R264: a busy ADC delays the Sampler's `SMP_RUN`). -/
def taskEnabled (task : Task) (adc : Bool) (s : State) : Bool :=
  match task with
  | .sampler => !s.fatalS && (match s.samplerAt with
    | .take => decide (s.hs = .wfs)
    | .run => adc && decide (s.hs = .smp)
    | .give => decide (s.hs = .smp))
  | .control => !s.fatalC && (match s.controlAt with
    | .take => decide (s.hs = .wfc)
    | .run => decide (s.hs = .ctl)
    | .give => decide (s.hs = .ctl))

/-- One stimulus offered to the machine, and the state it leaves. -/
def feed (x : Stimulus) (s : State) : State :=
  match step { s with inputs := [x] } with
  | .next t => t
  | .fault _ => s
  | .refused _ => s

/-- The state after the first `n` stimuli of an infinite schedule (R69). -/
def runSchedule (schedule : Nat → Stimulus) (s : State) : Nat → State
  | 0 => s
  | n + 1 => feed (schedule n) (runSchedule schedule s n)

/-- The agent of a task (R9). -/
def Task.agent : Task → Agent
  | .sampler => .sampler
  | .control => .control

/-- Weak fairness, the only liveness assumption a claim may use (R76): a task whose next operation stays enabled is
eventually stepped. `adcReady m` says that the ADC has a reading for the Sampler at step `m`; it is the environment's,
and no state of the block (R264, log 26). An ADC that never becomes ready is a Sampler that never steps, which this does
not exclude. -/
def WeaklyFair (task : Task) (adcReady : Nat → Bool) (schedule : Nat → Stimulus) (s : State) : Prop :=
  ∀ n, (∀ m, n ≤ m → taskEnabled task (adcReady m) (runSchedule schedule s m) = true) →
    ∃ m, n ≤ m ∧ (schedule m).agent = task.agent

/-- The assumption R264 asks of a claim that a Sampler waiting on the ADC goes on: the ADC answers, and the reading stays
until it is used. -/
def AdcAnswers (adcReady : Nat → Bool) : Prop := ∃ n, ∀ m, n ≤ m → adcReady m = true

end Sys2Proof.Machine
end

