-- ==== Sys2Proof/WellFormed.lean ====
section
/-! DEFINITION. Which operations have every operand in its legal range (R88, R91). An operation that is not well formed
still has a word and a decoding; the block answers it with IllegalOperand (R252). -/

namespace Sys2Proof

/-- Every operand is in its legal range: `k < Ni` for `RF_READ`, `x ≤ 10` for `SET_TGT_H`, `y ≤ 23` for `SET_TGT_Y`
(R88, R91); "No other operand can be out of range". -/
def Instr.wellFormed : Instr → Bool
  | .rfWrite _ _ => true
  | .rfRead i k => decide (k.toNat < i.capacity)
  | .rfMean _ => true
  | .qdEdge _ _ => true
  | .qdRef => true
  | .qdYaw => true
  | .smpRun _ => true
  | .ctlRun => true
  | .hsTakeS => true
  | .hsGiveC => true
  | .hsTakeC => true
  | .hsGiveS => true
  | .setTgtH x => decide (x.toNat < Config.hSteps)
  | .setTgtY y => decide (y.toNat < Config.ySteps)

end Sys2Proof
end

