-- ==== Sys2Proof/Certificates/Slice0/Obligations.lean ====
section
/-! DEFINITION. The statements for the provers. Each docstring cites the rule of spec/ it formalises. -/

open Sys2Proof Sys2Proof.Machine

/-! ### Encoding (R86 to R91) -/

/-- R87 to R89: the word of an operation decodes to that operation, with every operand at every value its field admits. -/
def Obligations.EncodedOperationsDecodeBack : Prop :=
  ∀ i : Instr, decode (encode i) = .ok i

/-- R86 to R90: a word that decodes is exactly its operation's word, so no bit of it is ignored. -/
def Obligations.DecodedWordsEncodeBack : Prop :=
  ∀ (w : Word) (i : Instr), decode w = .ok i → encode i = w

/-- R89: "A word `w` selects the operation whose `(w & mask) == match`; the masks are disjoint, so at most one row
matches." -/
def Obligations.OpcodeMapSelectsTheDecodedOperation : Prop :=
  ∀ w : Word,
    (∀ row ∈ opcodeMap, w &&& row.mask = row.bits → ∃ i, decode w = .ok i ∧ i.mnemonic = row.mnemonic) ∧
    (∀ row ∈ opcodeMap, ∀ row' ∈ opcodeMap, w &&& row.mask = row.bits → w &&& row'.mask = row'.bits → row = row')

/-- R90, R251 (derived; the list of stimuli and the ports it leaves are the model's own, logs 1 and 3): a word that
matches no row of R89 is `refuse IllegalCommand`: presented on `CMD`, it changes no register and emits no event, and the
answer is status ILLEGAL_CMD with `RESP` 0; the stimulus is taken, and the word and its ports are held as last sampled. -/
def Obligations.UnlistedWordIsIllegalCommand : Prop :=
  ∀ (w : Word) (q : Ports) (rest : List Stimulus) (s : State),
    (∀ row ∈ opcodeMap, w &&& row.mask ≠ row.bits) → s.inputs = .command w q :: rest →
    step s = .next { s with inputs := rest, cmd := w, ports := q, status := .illegalCmd, resp := 0#16 }

/-- R91, R252: an operation with an operand out of its range (`RF_READ` with `k ≥ Ni`, `SET_TGT_H` with `x > 10`,
`SET_TGT_Y` with `y > 23`) is refused with IllegalOperand: no register changes, no event, `RESP` 0; and no other
operation is. -/
def Obligations.OutOfRangeOperandIsIllegalOperand : Prop :=
  (∀ (i : Instr) (s : State), i.wellFormed = false →
    exec i s = .next { s with status := .illegalOperand, resp := 0#16 }) ∧
  (∀ (i : Instr) (s t : State), i.wellFormed = true → exec i s = .next t → t.status ≠ .illegalOperand)

/-- R87, R89: four words of the map decode to their operations (a sanity statement on written-out words). -/
def Obligations.WrittenOutWordsDecode : Prop :=
  decode 0b00010000000000000000011111010000#32 = .ok (.rfWrite .height 2000#12) ∧
  decode 0b00010001000000010000000000001001#32 = .ok (.rfRead .pot 9#4) ∧
  decode 0b00100000000000000000000000000010#32 = .ok (.qdEdge 1#1 0#1) ∧
  decode 0b01100001000000000000000000010111#32 = .ok (.setTgtY 23#5)

/-! ### The step -/

/-- R10, R86 (derived; the list of stimuli is the model's own, log 1): a presented word that decodes to an operation is
performed as that operation: the step is `exec` of it on the state whose ports are the presented ones and whose head of
the list is taken. -/
def Obligations.StepPerformsThePresentedOperation : Prop :=
  ∀ (w : Word) (q : Ports) (rest : List Stimulus) (s : State) (i : Instr),
    s.inputs = .command w q :: rest → decode w = .ok i →
    step s = exec i { s with inputs := rest, cmd := w, ports := q }

/-- R70, R165, R196, R259 (derived: the tasks' places are the model's own state, log 5): a task's stimulus performs the
operation its program stands at and moves on exactly if that is answered OK; an interrupt performs its own operation. -/
def Obligations.StepPerformsTheAgentsProgram : Prop :=
  ∀ (rest : List Stimulus) (s t : State),
    (∀ (r : RawSample) (q : Ports), s.inputs = .sampler r q :: rest →
      exec (samplerOp s.samplerAt r)
        { s with inputs := rest, cmd := encode (samplerOp s.samplerAt r), ports := q } = .next t →
      step s = .next { t with samplerAt := if t.status = .ok then t.samplerAt.next else t.samplerAt }) ∧
    (∀ q : Ports, s.inputs = .control q :: rest →
      exec (controlOp s.controlAt) { s with inputs := rest, cmd := encode (controlOp s.controlAt), ports := q } = .next t →
      step s = .next { t with controlAt := if t.status = .ok then t.controlAt.next else t.controlAt }) ∧
    (∀ b a : BitVec 1, s.inputs = .phaseEdge b a :: rest →
      exec (.qdEdge b a) { s with inputs := rest, cmd := encode (.qdEdge b a) } = .next t → step s = .next t) ∧
    (s.inputs = .refPin :: rest →
      exec .qdRef { s with inputs := rest, cmd := encode .qdRef } = .next t → step s = .next t)

/-- 93 part 1 (derived): "every operation word, in every state, with every port value, has exactly one outcome": no
operation and no step of the machine stops it. -/
def Obligations.EveryStepAnswersANextState : Prop :=
  (∀ (i : Instr) (s : State), ∃ t, exec i s = .next t) ∧ (∀ s : State, ∃ t, step s = .next t)

/-- R280 (derived; what the ports show is the model's choice, log 4, and the slots' value is `PREFILL` of the machine's
own record, log 7): the reset event "may occur at any time, is atomic, and sets every register of R38 to the value in
that table's reset column", and the trace of a session starts empty. It answers nothing: the ports keep their values, and
what the environment does next is not reset (R282). -/
def Obligations.ResetEventSetsEveryRegister : Prop :=
  ∀ (rest : List Stimulus) (s : State), s.inputs = .reset :: rest →
    ∃ t, step s = .next t ∧ (∀ r : Reg, r.same State.reset t) ∧ t.trace = [] ∧ t.inputs = rest ∧
      t.cmd = s.cmd ∧ t.ports = s.ports ∧ t.status = s.status ∧ t.resp = s.resp

/-- R38, column "reset" (derived; with `PREFILL` at the model's choice, the spec's default 0, log 7): the value every
register holds after reset. -/
def Obligations.ResetStateHoldsTheListedValues : Prop :=
  (∀ j, (h : j < 5) → State.reset.rf0.slot[j] = 0#12) ∧ State.reset.rf0.wr.val = 0 ∧
  (∀ j, (h : j < 10) → State.reset.rf1.slot[j] = 0#12) ∧ State.reset.rf1.wr.val = 0 ∧
  State.reset.qdCnt.toInt = 0 ∧ State.reset.qdPa = 0#1 ∧ State.reset.qdPb = 0#1 ∧ State.reset.qdRefEn = true ∧
  State.reset.smpGround = 0#12 ∧ State.reset.smpCalDone = false ∧ State.reset.chH = 0#12 ∧ State.reset.chY = 0#9 ∧
  State.reset.tgtH.val = 0 ∧ State.reset.tgtY.val = 0 ∧
  State.reset.pidH = ⟨0, 0⟩ ∧ State.reset.pidY = ⟨0, 0⟩ ∧ State.reset.ctlLastTicks.toNat = 1000000000 ∧
  State.reset.hs = .wfs ∧ State.reset.fatalS = false ∧ State.reset.fatalC = false ∧
  State.reset.fatalCauseS = 0#4 ∧ State.reset.fatalCauseC = 0#4

/-- R96: `RESP` is 0 for every operation other than `RF_READ`, `RF_MEAN` and `QD_YAW` and for every status other than
OK. -/
def Obligations.ResponseIsZeroUnlessAReadIsOk : Prop :=
  ∀ (i : Instr) (s t : State), exec i s = .next t →
    (t.status ≠ .ok → t.resp = 0#16) ∧
    ((∀ r k, i ≠ .rfRead r k) → (∀ r, i ≠ .rfMean r) → i ≠ .qdYaw → t.resp = 0#16)

/-- R272 and R251 to R254, R237: an operation that is turned away (any status but OK and FATAL) changes nothing but its
answer: no register, no event. -/
def Obligations.TurnedAwayOperationsChangeNothing : Prop :=
  ∀ (i : Instr) (s t : State), exec i s = .next t → t.status ≠ .ok → t.status ≠ .fatal →
    t = { s with status := t.status, resp := 0#16 }

/-! ### Ring filter -/

/-- R111: `RF_WRITE i, v` writes the slot at the write index of the selected ring and advances the index modulo its
capacity; everything else is unchanged; and its word is `0x10000000 | i<<16 | v`. -/
def Obligations.RfWriteStoresAndAdvances : Prop :=
  ∀ (v : RawSample) (s : State),
    encode (.rfWrite .height v) = 0x10000000#32 ||| (0#32 <<< 16) ||| v.setWidth 32 ∧
    encode (.rfWrite .pot v) = 0x10000000#32 ||| (1#32 <<< 16) ||| v.setWidth 32 ∧
    exec (.rfWrite .height v) s = .next { s with
      rf0 := { slot := s.rf0.slot.set s.rf0.wr.val v s.rf0.wr.isLt,
               wr := ⟨(s.rf0.wr.val + 1) % 5, Nat.mod_lt _ (by decide)⟩ },
      status := .ok, resp := 0#16 } ∧
    exec (.rfWrite .pot v) s = .next { s with
      rf1 := { slot := s.rf1.slot.set s.rf1.wr.val v s.rf1.wr.isLt,
               wr := ⟨(s.rf1.wr.val + 1) % 10, Nat.mod_lt _ (by decide)⟩ },
      status := .ok, resp := 0#16 }

/-- R60, R66, R111: of all the storage spaces, `RF_WRITE` changes one word: the selected ring's at its write index. -/
def Obligations.RfWriteChangesOneStoredWord : Prop :=
  ∀ (v : RawSample) (s t : State),
    (exec (.rfWrite .height v) s = .next t →
      memRead params t .rf0 s.rf0.wr.val = some (v.toNat : Int) ∧
      ∀ (space : Space) (j : Nat), (space ≠ .rf0 ∨ j ≠ s.rf0.wr.val) →
        memRead params t space j = memRead params s space j) ∧
    (exec (.rfWrite .pot v) s = .next t →
      memRead params t .rf1 s.rf1.wr.val = some (v.toNat : Int) ∧
      ∀ (space : Space) (j : Nat), (space ≠ .rf1 ∨ j ≠ s.rf1.wr.val) →
        memRead params t space j = memRead params s space j)

/-- R112: `RF_READ i, k` answers the word at `(WR + k) mod N`, zero-extended, when `k < N`, and is refused with
IllegalOperand when `k ≥ N`; it changes no state; and its word is `0x11000000 | i<<16 | k`. -/
def Obligations.RfReadAnswersTheWindowElement : Prop :=
  ∀ (k : BitVec 4) (s : State),
    encode (.rfRead .height k) = 0x11000000#32 ||| (0#32 <<< 16) ||| k.setWidth 32 ∧
    encode (.rfRead .pot k) = 0x11000000#32 ||| (1#32 <<< 16) ||| k.setWidth 32 ∧
    (k.toNat < 5 → exec (.rfRead .height k) s = .next { s with
      status := .ok
      resp := (s.rf0.slot[(s.rf0.wr.val + k.toNat) % 5]'(Nat.mod_lt _ (by decide))).setWidth 16 }) ∧
    (k.toNat < 10 → exec (.rfRead .pot k) s = .next { s with
      status := .ok
      resp := (s.rf1.slot[(s.rf1.wr.val + k.toNat) % 10]'(Nat.mod_lt _ (by decide))).setWidth 16 }) ∧
    (5 ≤ k.toNat → exec (.rfRead .height k) s = .next { s with status := .illegalOperand, resp := 0#16 }) ∧
    (10 ≤ k.toNat → exec (.rfRead .pot k) s = .next { s with status := .illegalOperand, resp := 0#16 })

/-- R114: `RF_MEAN i` answers `(2*sum + N) div (2*N)` over all `N` slots and changes no state; the 16 bits hold it; and
its word is `0x12000000 | i<<16`. -/
def Obligations.RfMeanAnswersTheRoundedMean : Prop :=
  encode (.rfMean .height) = 0x12000000#32 ||| (0#32 <<< 16) ∧ encode (.rfMean .pot) = 0x12000000#32 ||| (1#32 <<< 16) ∧
  ∀ s : State,
    (∃ v : Resp, v.toNat = (2 * (s.rf0.slot.toList.map BitVec.toNat).sum + 5) / 10 ∧
      exec (.rfMean .height) s = .next { s with status := .ok, resp := v }) ∧
    (∃ v : Resp, v.toNat = (2 * (s.rf1.slot.toList.map BitVec.toNat).sum + 10) / 20 ∧
      exec (.rfMean .pot) s = .next { s with status := .ok, resp := v })

/-- R115 (derived): the mean is `floor(sum/N + 1/2)`, the exact mean to the nearest integer with ties up, and lies in
0..4095. -/
def Obligations.MeanIsNearestIntegerTiesUp : Prop :=
  ∀ (n : Nat) (r : RingBuf n),
    (ringMean r : Int) = ⌊(ringSum r : ℚ) / (n : ℚ) + 1 / 2⌋ ∧ ringMean r ≤ 4095

/-- R111, R113, R118 (derived): a write drops the oldest element of the in-order window and puts the new one at its end,
whatever the ring held. -/
def Obligations.WriteShiftsTheWindowByOne : Prop :=
  ∀ (n : Nat) (r : RingBuf n) (v : RawSample), ringWindow (ringPush r v) = (ringWindow r).tail ++ [v]

/-- R113 (derived): after writes `w1..wm` since reset the window is the last `N` items of
`[PREFILL × N, w1, ..., wm]`. -/
def Obligations.WindowHoldsTheLastWrites : Prop :=
  ∀ (n : Nat) (h : 0 < n) (prefill : RawSample) (ws : List RawSample),
    ringWindow (ws.foldl ringPush (RingBuf.reset prefill n h)) = (List.replicate n prefill ++ ws).drop ws.length

/-- R65: `RF_READ`, `RF_MEAN` and `QD_YAW` change no state and may be repeated with the same result; and no operation
changes a port it samples, `TICKS` among them. -/
def Obligations.ReadsChangeNothingAndRepeat : Prop :=
  (∀ (i : Instr) (s t : State), ((∃ r k, i = .rfRead r k) ∨ (∃ r, i = .rfMean r) ∨ i = .qdYaw) → exec i s = .next t →
    t = { s with status := t.status, resp := t.resp } ∧ exec i t = .next t) ∧
  (∀ (i : Instr) (s t : State), exec i s = .next t → t.ports = s.ports)

/-! ### Quadrature decoder -/

/-- R132: `QD_EDGE b, a` sets the counter to `Norm(QD.CNT + d)` with `d` the direction table's entry at the index
`prevB, prevA, curB, curA`, and stores the pair; the nine bits of the counter hold the normalised value exactly; and its
word is `0x20000000 | b<<1 | a`. -/
def Obligations.QdEdgeCountsAndStoresThePair : Prop :=
  ∀ (b a : BitVec 1) (s : State), ∃ (c : BitVec 9) (index : Fin 16),
    encode (.qdEdge b a) = 0x20000000#32 ||| (b.setWidth 32 <<< 1) ||| a.setWidth 32 ∧
    index.val = 8 * s.qdPb.toNat + 4 * s.qdPa.toNat + 2 * b.toNat + a.toNat ∧
    c.toInt = norm params (s.qdCnt.toInt + (params.dirTable.get index).delta) ∧
    exec (.qdEdge b a) s = .next { s with qdCnt := c, qdPa := a, qdPb := b, status := .ok, resp := 0#16 }

/-- R133: `Norm` subtracts 448 above 224 and adds 448 below -223, once at most, and for `c` in -224..225, the only values
R132 can pass it, the result is in -223..224. -/
def Obligations.NormalisationCorrectsOnce : Prop :=
  ∀ c : Int,
    (c > 224 → norm params c = c - 448) ∧ (c < -223 → norm params c = c + 448) ∧
    (-223 ≤ c → c ≤ 224 → norm params c = c) ∧
    (-224 ≤ c → c ≤ 225 → -223 ≤ norm params c ∧ norm params c ≤ 224)

/-- R134 (derived): after every step the counter is in -223..224, if it was before. -/
def Obligations.CounterStaysInRange : Prop :=
  ∀ s t : State, CounterLegal s → step s = .next t → CounterLegal t

/-- R135: the first `QD_REF` clears `QD.REF_EN` and emits `RefSeen`; with the interrupt disabled it does nothing. The
counter and the pair are never changed by it; its word is `0x21000000`. -/
def Obligations.QdRefIsOneShot : Prop :=
  encode .qdRef = 0x21000000#32 ∧
  ∀ s : State,
    (s.qdRefEn = true → exec .qdRef s = .next { s with
      qdRefEn := false, trace := s.trace ++ [.refSeen], status := .ok, resp := 0#16 }) ∧
    (s.qdRefEn = false → exec .qdRef s = .next { s with status := .ok, resp := 0#16 })

/-- R138: `QD_YAW` answers `YawDeg(QD.CNT)`, sign-extended to 16 bits with nothing lost, and changes no state;
its word is `0x22000000`. -/
def Obligations.QdYawAnswersTheDegree : Prop :=
  encode .qdYaw = 0x22000000#32 ∧
  ∀ s : State, ∃ v : Resp, v.toInt = yawDeg params s.qdCnt.toInt ∧
    exec .qdYaw s = .next { s with status := .ok, resp := v }

/-- R136, R137: whatever `DEG_ROUND` is, the delivered degree is the exact `c × 45/56` itself where that is an integer
and within 1 of it otherwise, and lies in -180..180 for every reachable counter. -/
def Obligations.DegreeIsWithinOneOfTheExactRatio : Prop :=
  ∀ c : Int,
    (∀ m : Int, c = 56 * m → yawDeg params c = 45 * m) ∧
    ((yawDeg params c : ℚ) - (c : ℚ) * 45 / 56 < 1 ∧ (c : ℚ) * 45 / 56 - (yawDeg params c : ℚ) < 1) ∧
    (-223 ≤ c → c ≤ 224 → -180 ≤ yawDeg params c ∧ yawDeg params c ≤ 180)

/-- R260, R9 (derived; the list of stimuli is the model's own, log 1, and so are the tasks' places, log 5): an interrupt,
in every handoff state and after either task has halted, touches only the decoder's registers: no ring, no task, no
setpoint, no handoff, no fault register. -/
def Obligations.InterruptsTouchOnlyTheDecoder : Prop :=
  ∀ (x : Stimulus) (rest : List Stimulus) (s : State),
    ((∃ b a, x = .phaseEdge b a) ∨ x = .refPin) → s.inputs = x :: rest →
    ∃ t, step s = .next t ∧ t.inputs = rest ∧ t.samplerAt = s.samplerAt ∧ t.controlAt = s.controlAt ∧
      t.status = .ok ∧ ∀ r : Reg, r ∉ [Reg.qdCnt, .qdPa, .qdPb, .qdRefEn] → r.same s t

/-- R262: `QD_EDGE` and `QD_REF` commute. -/
def Obligations.EdgeAndReferenceCommute : Prop :=
  ∀ (b a : BitVec 1) (s : State), ∃ t u v : State,
    exec (.qdEdge b a) s = .next t ∧ exec .qdRef t = .next v ∧
    exec .qdRef s = .next u ∧ exec (.qdEdge b a) u = .next v

/-- R83, R95, R141 (derived; for the spec's default `DIR_TABLE`, which R83 marks as general knowledge): the four edges
that take the pair once round the clockwise cycle count four ticks down, modulo one revolution, and the four of the
reverse cycle four ticks up; the pair comes back. -/
def Obligations.FullPairCycleCountsFourTicks : Prop :=
  ∀ (p : Config.Params) (s : State), p.const = Config.sourceConstants → p.dirTable = Config.defaultDirTable →
    CounterLegal s →
    let cw (x : State) : State := qdEdgeWith p x.qdPa (~~~x.qdPb) x
    let acw (x : State) : State := qdEdgeWith p (~~~x.qdPa) x.qdPb x
    (cw (cw (cw (cw s)))).qdCnt.toInt = norm p (s.qdCnt.toInt - 4) ∧
    (cw (cw (cw (cw s)))).qdPa = s.qdPa ∧ (cw (cw (cw (cw s)))).qdPb = s.qdPb ∧
    (acw (acw (acw (acw s)))).qdCnt.toInt = norm p (s.qdCnt.toInt + 4) ∧
    (acw (acw (acw (acw s)))).qdPa = s.qdPa ∧ (acw (acw (acw (acw s)))).qdPb = s.qdPb

/-! ### Sampler -/

/-- R160 to R163: in its phase, not halted, with both display mailboxes free, `SMP_RUN r` writes the sample into ring 0,
captures the ground if it is due, sends height and yaw to the Control Loop and publishes both, and changes nothing
else. -/
def Obligations.SmpRunCompletesACycle : Prop :=
  ∀ (r : RawSample) (s : State),
    s.fatalS = false → s.hs = .smp → s.ports.fullDH = false → s.ports.fullDY = false →
    ∃ (ring : RingBuf 5) (m h : Nat) (g : BitVec 12) (y : Int),
      ring.slot = s.rf0.slot.set s.rf0.wr.val r s.rf0.wr.isLt ∧ ring.wr.val = (s.rf0.wr.val + 1) % 5 ∧
      m = (2 * (ring.slot.toList.map BitVec.toNat).sum + 5) / 10 ∧
      (s.smpCalDone = false → s.tgtH.val = 0 → g.toNat = m) ∧
      (s.smpCalDone = true ∨ s.tgtH.val ≠ 0 → g = s.smpGround) ∧
      h = (if g.toNat > m then g.toNat - m else 0) ∧ y = yawDeg params s.qdCnt.toInt ∧
      exec (.smpRun r) s = .next { s with
        rf0 := ring
        smpGround := g
        smpCalDone := s.smpCalDone || decide (s.tgtH.val = 0)
        chH := BitVec.ofNat 12 h
        chY := BitVec.ofInt 9 y
        trace := s.trace ++ [.samplerRun, .pub .dispH (h : Int), .pub .dispY y]
        status := .ok
        resp := 0#16 } ∧
      (BitVec.ofNat 12 h).toNat = h ∧ (BitVec.ofInt 9 y).toInt = y

/-- R164, R160 steps 7 and 8, R256: a full display mailbox halts the Sampler for good with its channel's cause; every
earlier write of the operation stays (ring 0, the ground if this cycle captures it, the pair for the Control Loop),
nothing later happens, `HS` stays. -/
def Obligations.SmpRunHaltsOnAFullMailbox : Prop :=
  ∀ (r : RawSample) (s : State), s.fatalS = false → s.hs = .smp →
    (s.ports.fullDH = true → ∃ t, exec (.smpRun r) s = .next t ∧
      t.status = .fatal ∧ t.resp = 0#16 ∧ t.fatalS = true ∧ t.fatalCauseS = 1#4 ∧ t.hs = .smp ∧ t.fatalC = s.fatalC ∧
      t.rf0 = ringPush s.rf0 r ∧ t.smpCalDone = (s.smpCalDone || decide (s.tgtH.val = 0)) ∧
      t.smpGround = (if s.smpCalDone = false ∧ s.tgtH.val = 0 then BitVec.ofNat 12 (ringMean t.rf0) else s.smpGround) ∧
      t.chH = BitVec.ofNat 12 (heightAbove t.smpGround.toNat (ringMean t.rf0)) ∧
      t.chY = BitVec.ofInt 9 (yawDeg params s.qdCnt.toInt) ∧
      t.trace = s.trace ++ [.samplerRun, .fatal .sampler .mailboxOverflow (some .dispH)]) ∧
    (s.ports.fullDH = false → s.ports.fullDY = true → ∃ t, exec (.smpRun r) s = .next t ∧
      t.status = .fatal ∧ t.resp = 0#16 ∧ t.fatalS = true ∧ t.fatalCauseS = 2#4 ∧ t.hs = .smp ∧ t.fatalC = s.fatalC ∧
      t.rf0 = ringPush s.rf0 r ∧ t.smpCalDone = (s.smpCalDone || decide (s.tgtH.val = 0)) ∧
      t.smpGround = (if s.smpCalDone = false ∧ s.tgtH.val = 0 then BitVec.ofNat 12 (ringMean t.rf0) else s.smpGround) ∧
      t.chH = BitVec.ofNat 12 (heightAbove t.smpGround.toNat (ringMean t.rf0)) ∧
      t.chY = BitVec.ofInt 9 (yawDeg params s.qdCnt.toInt) ∧
      t.trace = s.trace ++ [.samplerRun, .pub .dispH (heightAbove t.smpGround.toNat (ringMean t.rf0) : Int),
        .fatal .sampler .mailboxOverflow (some .dispY)])

/-- R27, R161: `CalibrationGround` is "set once (first qualifying cycle), never reset within a session": once captured,
no step but a reset event changes it or forgets it. -/
def Obligations.GroundIsCapturedOnce : Prop :=
  ∀ s t : State, s.smpCalDone = true → s.inputs.head? ≠ some .reset → step s = .next t →
    t.smpCalDone = true ∧ t.smpGround = s.smpGround

/-- R27, R162, R167 (derived): before the capture the ground is 0, and every step keeps that; and a run whose target
index is not zero then publishes height 0 and captures nothing, without a fault. -/
def Obligations.UncalibratedGroundStaysZero : Prop :=
  (∀ s t : State, UncalibratedIsZero s → step s = .next t → UncalibratedIsZero t) ∧
  (∀ (r : RawSample) (s : State), UncalibratedIsZero s → s.smpCalDone = false → s.tgtH.val ≠ 0 →
    s.fatalS = false → s.hs = .smp → s.ports.fullDH = false → s.ports.fullDY = false →
    ∃ t, exec (.smpRun r) s = .next t ∧ t.status = .ok ∧ t.smpCalDone = false ∧ t.smpGround = 0#12 ∧ t.chH = 0#12 ∧
      t.trace = s.trace ++ [.samplerRun, .pub .dispH 0, .pub .dispY (yawDeg params s.qdCnt.toInt)])

/-! ### Control loop -/

/-- R180 to R195 (derived; in exact rationals, the spec's default `NUM`, log 14): in its phase, not halted, with time
elapsed and both actuator mailboxes free, `CTL_RUN` remembers the reading (or reloads the counter), performs both axes'
PID steps on the sampled inputs, publishes both duties, and changes nothing else. -/
def Obligations.CtlRunCompletesACycle : Prop :=
  ∀ s : State,
    s.fatalC = false → s.hs = .ctl → s.ports.ticks.toNat < s.ctlLastTicks.toNat →
    s.ports.fullAH = false → s.ports.fullAY = false →
    ∃ (dt uh uy : ℚ) (eh ey : Int) (parked : Bool),
      dt = ((s.ctlLastTicks.toNat : ℚ) - (s.ports.ticks.toNat : ℚ)) * params.dtScale ∧
      eh = 100 * (s.tgtH.val : Int) - (s.chH.toNat : Int) ∧
      ey = yawErr (params.yTable.get s.tgtY) s.chY.toInt ∧
      parked = (decide (s.tgtH.val = 0) && params.parkPred eh) ∧
      uh = (if parked then 0 else 50) + 1 / 10 * (eh : ℚ) +
        1 / 100000 * ((if |eh| < 20 then 0 else s.pidH.i) + (eh : ℚ) * dt) ∧
      uy = (if parked then 0 else 40) + (ey : ℚ) +
        1 / 5000 * ((if |ey| < 2 then 0 else s.pidY.i) + (ey : ℚ) * dt) ∧
      exec .ctlRun s = .next { s with
        ctlLastTicks := if s.ports.ticks.toNat < 400000000 then 1000000000#32 else s.ports.ticks
        pidH := { i := (if |eh| < 20 then 0 else s.pidH.i) + (eh : ℚ) * dt, last := eh }
        pidY := { i := (if |ey| < 2 then 0 else s.pidY.i) + (ey : ℚ) * dt, last := ey }
        trace := s.trace ++ [.controlRun] ++ (if s.ports.ticks.toNat < 400000000 then [.timerReload] else []) ++
          [.pub .actH (dutyRound params (min (min (max uh 0) 99) 99)),
           .pub .actY (dutyRound params (min (min (max uy 0) 99) 85))]
        status := .ok
        resp := 0#16 }

/-- R184: a reading that did not decrease is a fatal halt of the Control Loop with cause `DtNotPositive`, before any
register is written: no duty is published. -/
def Obligations.CtlRunHaltsWhenNoTimePassed : Prop :=
  ∀ s : State, s.fatalC = false → s.hs = .ctl → s.ctlLastTicks.toNat ≤ s.ports.ticks.toNat →
    exec .ctlRun s = .next { s with
      fatalC := true, fatalCauseC := 5#4,
      trace := s.trace ++ [.controlRun, .fatal .control .dtNotPositive none], status := .fatal, resp := 0#16 }

/-- R195, R180 steps 7 and 12, R256: a full actuator mailbox halts the Control Loop with its channel's cause. At step 7
the timer shadow and the height axis are already updated and the yaw axis is not run; at step 12 everything is updated
and the height duty is out. -/
def Obligations.CtlRunHaltsOnAFullMailbox : Prop :=
  ∀ s : State, s.fatalC = false → s.hs = .ctl → s.ports.ticks.toNat < s.ctlLastTicks.toNat →
    let pre := s.trace ++ [.controlRun] ++ (if s.ports.ticks.toNat < 400000000 then [.timerReload] else [])
    (s.ports.fullAH = true → ∃ t, exec .ctlRun s = .next t ∧
      t.status = .fatal ∧ t.fatalC = true ∧ t.fatalCauseC = 3#4 ∧ t.hs = .ctl ∧ t.fatalS = s.fatalS ∧
      t.ctlLastTicks = (if s.ports.ticks.toNat < 400000000 then 1000000000#32 else s.ports.ticks) ∧
      t.pidH = (heightStep params (cycleDt params s) s).1 ∧ t.pidY = s.pidY ∧
      t.trace = pre ++ [.fatal .control .mailboxOverflow (some .actH)]) ∧
    (s.ports.fullAH = false → s.ports.fullAY = true → ∃ t, exec .ctlRun s = .next t ∧
      t.status = .fatal ∧ t.fatalC = true ∧ t.fatalCauseC = 4#4 ∧ t.hs = .ctl ∧ t.fatalS = s.fatalS ∧
      t.ctlLastTicks = (if s.ports.ticks.toNat < 400000000 then 1000000000#32 else s.ports.ticks) ∧
      t.pidH = (heightStep params (cycleDt params s) s).1 ∧ t.pidY = (yawStep params (cycleDt params s) s).1 ∧
      t.trace = pre ++ [.pub .actH (heightDuty params (cycleDt params s) s),
        .fatal .control .mailboxOverflow (some .actY)])

/-- R187: the PID step over exact rationals, for any axis: inside the deadband, strictly, the accumulator is zeroed
before this cycle's term is added, outside it the term is added to it; the output is
`off + KP*e + KD*(LAST - e)/dt + KI*I` with the new accumulator; `LAST` becomes `e`. -/
def Obligations.PidStepResetsThenAccumulates : Prop :=
  ∀ (axis : Config.Axis) (parked : Bool) (e : Int) (dt : ℚ) (st : Pid), 0 < dt →
    ∃ i : ℚ, (|e| < axis.db → i = (e : ℚ) * dt) ∧ (axis.db ≤ |e| → i = st.i + (e : ℚ) * dt) ∧
      pidStep Config.exactNum axis parked e dt st = (⟨i, e⟩,
        (if parked then 0 else (axis.offset : ℚ)) + axis.kp * (e : ℚ) + axis.kd * (((st.last : ℚ) - (e : ℚ)) / dt) +
          axis.ki * i)

/-- R191, R201 (derived): whatever the unclamped output and whatever `DUTY_ROUND` is, a height duty is in 0..99 and a yaw
duty in 0..85, and an output that drives past the ceiling gives the ceiling. -/
def Obligations.DutyIsClamped : Prop :=
  ∀ u : ℚ,
    (0 ≤ duty params u 99 ∧ duty params u 99 ≤ 99) ∧ (0 ≤ duty params u 85 ∧ duty params u 85 ≤ 85) ∧
    (99 ≤ u → duty params u 99 = 99) ∧ (85 ≤ u → duty params u 85 = 85) ∧
    (u ≤ 0 → duty params u 99 = 0 ∧ duty params u 85 = 0)

/-- R193: the wraparound candidate is chosen exactly when the direct difference exceeds 180 (a tie keeps the direct one),
so on the other side of the seam the error is the long way round; the sign is negated. -/
def Obligations.YawErrorWrapsOnOneSideOnly : Prop :=
  ∀ t c : Int,
    (t - c > 180 → yawErr t c = -(t - (c + 360))) ∧ (t - c ≤ 180 → yawErr t c = -(t - c)) ∧
    (yawErr t c).natAbs ≤ (t - c).natAbs ∧ (yawErr t c).natAbs ≤ (t - (c + 360)).natAbs

/-- R98, R201 (derived): every value ever published is in its channel's range: each step keeps that, if the counter is
in its range. -/
def Obligations.PublishedValuesStayInRange : Prop :=
  ∀ s t : State, CounterLegal s → TraceLegal s → step s = .next t → TraceLegal t

/-- R38 (derived): `PIDH.LAST` never leaves -4095..1000. -/
def Obligations.HeightErrorStaysInRange : Prop :=
  ∀ s t : State, HeightErrorLegal s → step s = .next t → HeightErrorLegal t

/-- R200: the axes are independent, but for `dt` and the parked flag, which they share. Two states that differ only in
the yaw axis's own inputs and state (`PIDY.*`, `CH_Y`, `TGT_Y`) get the same height axis out of a `CTL_RUN`, registers
and published duty; two that differ only in the height axis's (`PIDH.*`, `CH_H`, `TGT_H`) and are parked alike get the
same yaw axis. -/
def Obligations.AxesAreIndependent : Prop :=
  ∀ (s t u : State) (pid : Pid), exec .ctlRun s = .next t →
    (∀ (chY : BitVec 9) (tgtY : Fin 24), exec .ctlRun { s with pidY := pid, chY := chY, tgtY := tgtY } = .next u →
      u.pidH = t.pidH ∧ u.ctlLastTicks = t.ctlLastTicks ∧
      ∀ v, Event.pub .actH v ∈ u.trace.drop s.trace.length ↔ Event.pub .actH v ∈ t.trace.drop s.trace.length) ∧
    (∀ (chH : BitVec 12) (tgtH : Fin 11),
      cycleParked params { s with chH := chH, tgtH := tgtH } = cycleParked params s →
      exec .ctlRun { s with pidH := pid, chH := chH, tgtH := tgtH } = .next u →
      u.pidY = t.pidY ∧ u.ctlLastTicks = t.ctlLastTicks ∧
      ∀ v, Event.pub .actY v ∈ u.trace.drop s.trace.length ↔ Event.pub .actY v ∈ t.trace.drop s.trace.length)

/-- R295 (derived): the reference pin changes nothing the controller sees: for every operation but `QD_REF` the enable
bit is neither read nor written, so the outcomes of two states that differ only in it differ only in it. -/
def Obligations.ReferencePinIsInvisibleElsewhere : Prop :=
  ∀ (i : Instr) (s t : State) (b : Bool), i ≠ .qdRef → exec i s = .next t →
    t.qdRefEn = s.qdRefEn ∧ exec i { s with qdRefEn := b } = .next { t with qdRefEn := b }

/-- R198, R199: a setpoint delivery with a legal index sets its target index and nothing else, in every handoff state;
an index above 10 (height) or 23 (yaw) is refused with IllegalOperand and no state change. Their words
are `0x60000000 | x` and `0x61000000 | y`. -/
def Obligations.SetpointDeliveriesAreRangeChecked : Prop :=
  (∀ x : BitVec 4, encode (.setTgtH x) = 0x60000000#32 ||| x.setWidth 32) ∧
  (∀ y : BitVec 5, encode (.setTgtY y) = 0x61000000#32 ||| y.setWidth 32) ∧
  ∀ s : State,
    (∀ x : BitVec 4, x.toNat ≤ 10 → ∃ ih : Fin 11, ih.val = x.toNat ∧
      exec (.setTgtH x) s = .next { s with tgtH := ih, status := .ok, resp := 0#16 }) ∧
    (∀ x : BitVec 4, 10 < x.toNat → exec (.setTgtH x) s = .next { s with status := .illegalOperand, resp := 0#16 }) ∧
    (∀ y : BitVec 5, y.toNat ≤ 23 → ∃ iy : Fin 24, iy.val = y.toNat ∧
      exec (.setTgtY y) s = .next { s with tgtY := iy, status := .ok, resp := 0#16 }) ∧
    (∀ y : BitVec 5, 23 < y.toNat → exec (.setTgtY y) s = .next { s with status := .illegalOperand, resp := 0#16 })

/-! ### Handoff arbiter and the fatal halt -/

/-- R231, R233: a take by a halted task is refused; otherwise it moves the token (`WFS -> SMP`, `WFC -> CTL`) when its
gate is available, and is BLOCKED and changes nothing while the gate is held. Their words are `0x50000000` and
`0x52000000`. -/
def Obligations.TakesMoveTheTokenOrBlock : Prop :=
  encode .hsTakeS = 0x50000000#32 ∧ encode .hsTakeC = 0x52000000#32 ∧
  ∀ s : State,
    (s.fatalS = true → exec .hsTakeS s = .next { s with status := .halted, resp := 0#16 }) ∧
    (s.fatalS = false → s.hs = .wfs → exec .hsTakeS s = .next { s with hs := .smp, status := .ok, resp := 0#16 }) ∧
    (s.fatalS = false → s.hs ≠ .wfs → exec .hsTakeS s = .next { s with status := .blocked, resp := 0#16 }) ∧
    (s.fatalC = true → exec .hsTakeC s = .next { s with status := .halted, resp := 0#16 }) ∧
    (s.fatalC = false → s.hs = .wfc → exec .hsTakeC s = .next { s with hs := .ctl, status := .ok, resp := 0#16 }) ∧
    (s.fatalC = false → s.hs ≠ .wfc → exec .hsTakeC s = .next { s with status := .blocked, resp := 0#16 })

/-- R232, R234: a give by a halted task is refused; otherwise it moves the token (`SMP -> WFC`, `CTL -> WFS`) when the
task holds it, and is a ProtocolViolation that changes nothing when it does not; it never blocks. Their words
are `0x51000000` and `0x53000000`. -/
def Obligations.GivesMoveTheTokenOrAreRefused : Prop :=
  encode .hsGiveC = 0x51000000#32 ∧ encode .hsGiveS = 0x53000000#32 ∧
  ∀ s : State,
    (s.fatalS = true → exec .hsGiveC s = .next { s with status := .halted, resp := 0#16 }) ∧
    (s.fatalS = false → s.hs = .smp → exec .hsGiveC s = .next { s with hs := .wfc, status := .ok, resp := 0#16 }) ∧
    (s.fatalS = false → s.hs ≠ .smp → exec .hsGiveC s = .next { s with status := .protocol, resp := 0#16 }) ∧
    (s.fatalC = true → exec .hsGiveS s = .next { s with status := .halted, resp := 0#16 }) ∧
    (s.fatalC = false → s.hs = .ctl → exec .hsGiveS s = .next { s with hs := .wfs, status := .ok, resp := 0#16 }) ∧
    (s.fatalC = false → s.hs ≠ .ctl → exec .hsGiveS s = .next { s with status := .protocol, resp := 0#16 })

/-- R254, R261: `SMP_RUN` and `HS_GIVE_C` when `HS` is not `SMP`, `CTL_RUN` and `HS_GIVE_S` when `HS` is not `CTL`, are
refused with `ProtocolViolation` (if the task is not halted, which is checked first): no register changes, no event. -/
def Obligations.OperationsOutsideTheirPhaseAreRefused : Prop :=
  ∀ s : State,
    (s.fatalS = false → s.hs ≠ .smp → ∀ i, ((∃ r, i = .smpRun r) ∨ i = .hsGiveC) →
      exec i s = .next { s with status := .protocol, resp := 0#16 }) ∧
    (s.fatalC = false → s.hs ≠ .ctl → ∀ i, (i = .ctlRun ∨ i = .hsGiveS) →
      exec i s = .next { s with status := .protocol, resp := 0#16 })

/-- R253: the three operations of a halted task are refused with `Halted`: no register changes, no event. -/
def Obligations.HaltedTasksOperationsAreRefused : Prop :=
  ∀ s : State,
    (s.fatalS = true → ∀ i, (i = .hsTakeS ∨ (∃ r, i = .smpRun r) ∨ i = .hsGiveC) →
      exec i s = .next { s with status := .halted, resp := 0#16 }) ∧
    (s.fatalC = true → ∀ i, (i = .hsTakeC ∨ i = .ctlRun ∨ i = .hsGiveS) →
      exec i s = .next { s with status := .halted, resp := 0#16 })

/-- R230, R240: nothing but the four handoff operations changes the token, and they move it only along
`WFS -> SMP -> WFC -> CTL -> WFS`, each along its own arc. -/
def Obligations.TokenMovesOnlyRoundTheRing : Prop :=
  ∀ (i : Instr) (s t : State), exec i s = .next t → t.hs ≠ s.hs → t.status = .ok ∧
    (i, s.hs, t.hs) ∈ [(Instr.hsTakeS, Handoff.wfs, Handoff.smp), (.hsGiveC, .smp, .wfc), (.hsTakeC, .wfc, .ctl),
      (.hsGiveS, .ctl, .wfs)]

/-- R236, R203, R70 (derived; the tasks' places are the model's own state, log 5): while the tasks' operations come only
from the tasks' programs, interrupts, other commands and resets falling anywhere, every step keeps the strict
ping-pong of Sampler and Control runs; and in every such state the Control runs are at most the Sampler runs and at most
one fewer. -/
def Obligations.TasksAlternateStrictly : Prop :=
  (∀ s t : State, Alternation s → (∀ x ∈ s.inputs, followsPrograms x = true) → step s = .next t →
    Alternation t ∧ ∀ x ∈ t.inputs, followsPrograms x = true) ∧
  (∀ s : State, Alternation s →
    (taskRuns s.trace).count .control ≤ (taskRuns s.trace).count .sampler ∧
    (taskRuns s.trace).count .sampler ≤ (taskRuns s.trace).count .control + 1)

/-- R254 (derived; the tasks' places are the model's own state, log 5): "Agents that follow their programs never raise"
`ProtocolViolation`: in a state of the strict ping-pong no turn of a task is answered so. -/
def Obligations.ProgramsNeverViolateTheProtocol : Prop :=
  ∀ (x : Stimulus) (rest : List Stimulus) (s t : State),
    Alternation s → s.inputs = x :: rest → (x.agent = .sampler ∨ x.agent = .control) → step s = .next t →
    t.status ≠ .protocol

/-- R35, R257: the halt is permanent: no step but a reset event clears a `FATAL` bit or changes its recorded cause. -/
def Obligations.FatalHaltsArePermanent : Prop :=
  ∀ s t : State, s.inputs.head? ≠ some .reset → step s = .next t →
    (s.fatalS = true → t.fatalS = true ∧ t.fatalCauseS = s.fatalCauseS) ∧
    (s.fatalC = true → t.fatalC = true ∧ t.fatalCauseC = s.fatalCauseC)

/-- R239 (derived): after a fatal halt the whole pipeline stops: until a reset event no step moves the token or starts a
run of either task. -/
def Obligations.PipelineStaysStoppedAfterAHalt : Prop :=
  ∀ s t : State, PipelineStopped s → s.inputs.head? ≠ some .reset → step s = .next t →
    PipelineStopped t ∧ t.hs = s.hs ∧ taskRuns t.trace = taskRuns s.trace

/-- R255, R239, R257 (derived): every step keeps the fault records in agreement with the halt bits, codes 1 and 2 only
for the Sampler, 3, 4 and 5 only for the Control Loop, and the halted task holding the token. -/
def Obligations.FaultRecordsStayConsistent : Prop :=
  ∀ s t : State, FaultRecordsAgree s → step s = .next t → FaultRecordsAgree t

/-- R134, R98, R162, R38, R255, R236 (derived): the reset state meets every invariant stated above. -/
def Obligations.ResetMeetsEveryInvariant : Prop :=
  CounterLegal State.reset ∧ TraceLegal State.reset ∧ UncalibratedIsZero State.reset ∧
  HeightErrorLegal State.reset ∧ FaultRecordsAgree State.reset ∧ Alternation State.reset

/-- R38, column "writer (operation)": an operation changes no register but those the table lists it as a writer of. -/
def Obligations.OnlyListedOperationsWriteARegister : Prop :=
  ∀ (i : Instr) (s t : State) (r : Reg), exec i s = .next t → r ∉ writes i → r.same s t

/-- R41, R11 (derived; stimuli are the model's own form of the agents' steps, log 1; owners R41 does not name, log 27):
a step of a task, of an interrupt, or of an `ENV` that keeps the discipline of R41, changes only registers that belong
to its agent, `HS` shared by the two tasks. The discipline is no check (R263): a direct `RF_WRITE 0` by `ENV` is
performed, and changes a register that is not `ENV`'s. -/
def Obligations.AgentsWriteOnlyTheirOwnRegisters : Prop :=
  (∀ (x : Stimulus) (rest : List Stimulus) (s t : State) (r : Reg),
    s.inputs = x :: rest → keepsOwnership x = true → step s = .next t → x.agent.owns r = false → r.same s t) ∧
  (∀ (v : RawSample) (q : Ports) (rest : List Stimulus) (s : State),
    s.inputs = .command (encode (.rfWrite .height v)) q :: rest →
    keepsOwnership (.command (encode (.rfWrite .height v)) q) = false ∧ Agent.env.owns .rf0Wr = false ∧
    ∃ t, step s = .next t ∧ t.status = .ok ∧ ¬ Reg.rf0Wr.same s t)

/-- R165, R196, R236, R237 (derived; the list of stimuli is the model's own, log 1, and the tasks' places, log 5): from
a state that waits for a sample, six turns of the two tasks with free mailboxes and time passing complete one whole
cycle: one Sampler run, one Control run, four publications, and the machine waits for a sample again. -/
def Obligations.OneWholeCycleCompletes : Prop :=
  ∀ (s : State) (r0 r1 r2 : RawSample) (p0 p1 p2 q0 q1 q2 : Ports) (rest : List Stimulus),
    s.hs = .wfs → s.samplerAt = .take → s.controlAt = .take → s.fatalS = false → s.fatalC = false →
    s.inputs = [.sampler r0 p0, .sampler r1 p1, .sampler r2 p2, .control q0, .control q1, .control q2] ++ rest →
    p1.fullDH = false → p1.fullDY = false → q1.fullAH = false → q1.fullAY = false →
    q1.ticks.toNat < s.ctlLastTicks.toNat →
    ∃ (t : State) (h y dh dy : Int), Sys2Proof.core.run 6 s = .next t ∧
      t.hs = .wfs ∧ t.samplerAt = .take ∧ t.controlAt = .take ∧ t.fatalS = false ∧ t.fatalC = false ∧ t.inputs = rest ∧
      t.trace = s.trace ++ [.samplerRun, .pub .dispH h, .pub .dispY y, .controlRun] ++
        (if q1.ticks.toNat < 400000000 then [.timerReload] else []) ++ [.pub .actH dh, .pub .actY dy]

/-- R76, R237, R231, R264 (derived; schedules are the model's own, log 1, the Sampler's place, log 5, and the ADC's
readiness, log 26): under weak fairness an available gate is taken, whatever the ADC does: a Sampler that waits with
`SampleReady` available eventually holds the token, whatever interrupts, setpoints and blocked Control attempts fall in
between. A Sampler that holds the token before its `SMP_RUN` eventually runs it, if the ADC answers. -/
def Obligations.FairSamplerTakesAnAvailableGate : Prop :=
  ∀ (adcReady : Nat → Bool) (schedule : Nat → Stimulus) (s : State),
    WeaklyFair .sampler adcReady schedule s →
    (∀ n, followsPrograms (schedule n) = true ∧ schedule n ≠ .reset) → s.fatalS = false →
    (s.hs = .wfs → s.samplerAt = .take → ∃ n, (runSchedule schedule s n).hs = .smp) ∧
    (AdcAnswers adcReady → s.hs = .smp → s.samplerAt = .run →
      ∃ n, taskRuns (runSchedule schedule s n).trace = taskRuns s.trace ++ [.sampler])
end

