-- ==== Sys2Proof/Laws/Decode.lean ====
section
/-! SUPPORT. Packing and unpacking the four fields of a command word (R86), and what the operand forms accept. -/

namespace Sys2Proof

@[simp] theorem unitField_packFields (u f : BitVec 4) (s : BitVec 8) (i : BitVec 16) : unitField (packFields u f s i) = u := by
  apply BitVec.eq_of_getElem_eq; intro j h
  interval_cases j <;> simp [unitField, packFields]
@[simp] theorem funcField_packFields (u f : BitVec 4) (s : BitVec 8) (i : BitVec 16) : funcField (packFields u f s i) = f := by
  apply BitVec.eq_of_getElem_eq; intro j h
  interval_cases j <;> simp [funcField, packFields]
@[simp] theorem selField_packFields (u f : BitVec 4) (s : BitVec 8) (i : BitVec 16) : selField (packFields u f s i) = s := by
  apply BitVec.eq_of_getElem_eq; intro j h
  interval_cases j <;> simp [selField, packFields]
@[simp] theorem immField_packFields (u f : BitVec 4) (s : BitVec 8) (i : BitVec 16) : immField (packFields u f s i) = i := by
  apply BitVec.eq_of_getElem_eq; intro j h
  interval_cases j <;> simp [immField, packFields]
theorem packFields_fields (w : Word) : packFields (unitField w) (funcField w) (selField w) (immField w) = w := by
  apply BitVec.eq_of_getElem_eq; intro j h
  interval_cases j <;> simp [immField, unitField, funcField, selField, packFields]

/-- An `n`-bit operand fits the low bits of `IMM` and is read back (R88). -/
theorem operandOfImm_setWidth {n : Nat} (h : n ≤ 16) (x : BitVec n) : operandOfImm n (x.setWidth 16) = .ok x := by
  have hx : (x.setWidth 16).toNat = x.toNat := by
    rw [BitVec.toNat_setWidth]; exact Nat.mod_eq_of_lt (lt_of_lt_of_le x.isLt (Nat.pow_le_pow_right (by decide) h))
  rw [operandOfImm, if_pos (hx ▸ x.isLt)]
  congr 1
  apply BitVec.eq_of_toNat_eq
  rw [BitVec.toNat_setWidth, hx, Nat.mod_eq_of_lt x.isLt]

/-- What `operandOfImm` accepts is the operand and nothing else (R86). -/
theorem operandOfImm_ok {n : Nat} (_h : n ≤ 16) {imm : BitVec 16} {x : BitVec n} (hx : operandOfImm n imm = .ok x) :
    imm = x.setWidth 16 := by
  unfold operandOfImm at hx
  split at hx
  · rename_i hlt
    cases hx
    apply BitVec.eq_of_toNat_eq
    rw [BitVec.toNat_setWidth, BitVec.toNat_setWidth, Nat.mod_eq_of_lt hlt, Nat.mod_eq_of_lt imm.isLt]
  · cases hx

@[simp] theorem ringOfSel_sel (i : Ring) : ringOfSel i.sel = .ok i := by cases i <;> rfl

/-- What `ringOfSel` accepts is one of the two instances (R86). -/
theorem ringOfSel_ok {sel : BitVec 8} {i : Ring} (h : ringOfSel sel = .ok i) : sel = i.sel := by
  unfold ringOfSel at h
  split at h
  · cases h; assumption
  · split at h
    · cases h; assumption
    · cases h

/-- A word of format `SI` that is accepted, field by field (R87). -/
theorem formatSI_ok {n : Nat} (hn : n ≤ 16) {mk : Ring → BitVec n → Instr} {sel : BitVec 8} {imm : BitVec 16} {j : Instr}
    (h : formatSI n mk sel imm = .ok j) : ∃ i x, j = mk i x ∧ sel = i.sel ∧ imm = x.setWidth 16 := by
  unfold formatSI at h
  split at h
  · rename_i i x hi hx
    cases h
    exact ⟨i, x, rfl, ringOfSel_ok hi, operandOfImm_ok hn hx⟩
  · cases h

/-- A word of format `I` that is accepted, field by field (R87). -/
theorem formatI_ok {n : Nat} (hn : n ≤ 16) {mk : BitVec n → Instr} {sel : BitVec 8} {imm : BitVec 16} {j : Instr}
    (h : formatI n mk sel imm = .ok j) : ∃ x, j = mk x ∧ sel = 0#8 ∧ imm = x.setWidth 16 := by
  unfold formatI at h
  split at h
  · rename_i x hx
    split at h
    · cases h; exact ⟨x, rfl, by assumption, operandOfImm_ok hn hx⟩
    · cases h
  · cases h

/-- A word of format `N` that is accepted (R87). -/
theorem formatN_ok {i j : Instr} {sel : BitVec 8} {imm : BitVec 16} (h : formatN i sel imm = .ok j) :
    j = i ∧ sel = 0#8 ∧ imm = 0#16 := by
  unfold formatN at h
  split at h
  · cases h; rename_i hs; exact ⟨rfl, hs⟩
  · cases h

theorem unitField_and (a b : Word) : unitField (a &&& b) = unitField a &&& unitField b := BitVec.extractLsb'_and ..
theorem funcField_and (a b : Word) : funcField (a &&& b) = funcField a &&& funcField b := BitVec.extractLsb'_and ..
theorem selField_and (a b : Word) : selField (a &&& b) = selField a &&& selField b := BitVec.extractLsb'_and ..
theorem immField_and (a b : Word) : immField (a &&& b) = immField a &&& immField b := BitVec.extractLsb'_and ..

/-- Masking a word masks its four fields. -/
theorem packFields_and (u f u' f' : BitVec 4) (s s' : BitVec 8) (i i' : BitVec 16) :
    packFields u f s i &&& packFields u' f' s' i' = packFields (u &&& u') (f &&& f') (s &&& s') (i &&& i') := by
  rw [← packFields_fields (packFields u f s i &&& packFields u' f' s' i')]
  simp only [unitField_and, funcField_and, selField_and, immField_and, unitField_packFields, funcField_packFields,
    selField_packFields, immField_packFields]

/-- Two packed words are equal exactly when their fields are. -/
theorem packFields_inj (u f u' f' : BitVec 4) (s s' : BitVec 8) (i i' : BitVec 16) :
    packFields u f s i = packFields u' f' s' i' ↔ u = u' ∧ f = f' ∧ s = s' ∧ i = i' := by
  constructor
  · intro h
    have h1 := congrArg unitField h
    have h2 := congrArg funcField h
    have h3 := congrArg selField h
    have h4 := congrArg immField h
    simp at h1 h2 h3 h4
    exact ⟨h1, h2, h3, h4⟩
  · rintro ⟨rfl, rfl, rfl, rfl⟩; rfl

/-- A row selects a packed word field by field (R89). -/
theorem OpcodeRow.selectedBy_packFields (m : String) (b k : Word) (u f : BitVec 4) (s : BitVec 8) (i : BitVec 16) :
    OpcodeRow.selectedBy ⟨m, b, k⟩ (packFields u f s i) =
      (decide (u &&& unitField k = unitField b) && (decide (f &&& funcField k = funcField b) &&
        (decide (s &&& selField k = selField b) && decide (i &&& immField k = immField b)))) := by
  unfold OpcodeRow.selectedBy
  rw [← packFields_fields k, packFields_and]
  nth_rw 1 [← packFields_fields b]
  simp only [unitField_packFields, funcField_packFields, selField_packFields, immField_packFields]
  rw [beq_eq_decide, ← Bool.decide_and, ← Bool.decide_and, ← Bool.decide_and]
  exact decide_eq_decide.2 (packFields_inj ..)

/-- An `n`-bit operand leaves the high bits of `IMM` zero (R86). -/
theorem setWidth_and_high {n : Nat} (x : BitVec n) (k : BitVec 16) (h : k = (BitVec.allOnes 16) <<< n) : x.setWidth 16 &&& k = 0#16 := by
  subst h
  apply BitVec.eq_of_getElem_eq; intro j hj
  simp
  intro h
  by_cases hh : n ≤ j
  · simp [BitVec.getLsbD_of_ge _ _ hh] at h
  · omega

end Sys2Proof
end

