-- ==== Sys2Proof/Laws/State.lean ====
section
/-! SUPPORT. One lemma per field per named update of State, so that no later proof unfolds a record update. -/

namespace Sys2Proof.Machine

variable (s : State)

/-! ### `emit` -/

@[simp] theorem emit_rf0 (e : Event) : (emit e s).rf0 = s.rf0 := rfl
@[simp] theorem emit_rf1 (e : Event) : (emit e s).rf1 = s.rf1 := rfl
@[simp] theorem emit_qdCnt (e : Event) : (emit e s).qdCnt = s.qdCnt := rfl
@[simp] theorem emit_qdPa (e : Event) : (emit e s).qdPa = s.qdPa := rfl
@[simp] theorem emit_qdPb (e : Event) : (emit e s).qdPb = s.qdPb := rfl
@[simp] theorem emit_qdRefEn (e : Event) : (emit e s).qdRefEn = s.qdRefEn := rfl
@[simp] theorem emit_smpGround (e : Event) : (emit e s).smpGround = s.smpGround := rfl
@[simp] theorem emit_smpCalDone (e : Event) : (emit e s).smpCalDone = s.smpCalDone := rfl
@[simp] theorem emit_chH (e : Event) : (emit e s).chH = s.chH := rfl
@[simp] theorem emit_chY (e : Event) : (emit e s).chY = s.chY := rfl
@[simp] theorem emit_tgtH (e : Event) : (emit e s).tgtH = s.tgtH := rfl
@[simp] theorem emit_tgtY (e : Event) : (emit e s).tgtY = s.tgtY := rfl
@[simp] theorem emit_pidH (e : Event) : (emit e s).pidH = s.pidH := rfl
@[simp] theorem emit_pidY (e : Event) : (emit e s).pidY = s.pidY := rfl
@[simp] theorem emit_ctlLastTicks (e : Event) : (emit e s).ctlLastTicks = s.ctlLastTicks := rfl
@[simp] theorem emit_hs (e : Event) : (emit e s).hs = s.hs := rfl
@[simp] theorem emit_fatalS (e : Event) : (emit e s).fatalS = s.fatalS := rfl
@[simp] theorem emit_fatalC (e : Event) : (emit e s).fatalC = s.fatalC := rfl
@[simp] theorem emit_fatalCauseS (e : Event) : (emit e s).fatalCauseS = s.fatalCauseS := rfl
@[simp] theorem emit_fatalCauseC (e : Event) : (emit e s).fatalCauseC = s.fatalCauseC := rfl
@[simp] theorem emit_resp (e : Event) : (emit e s).resp = s.resp := rfl
@[simp] theorem emit_status (e : Event) : (emit e s).status = s.status := rfl
@[simp] theorem emit_trace (e : Event) : (emit e s).trace = s.trace ++ [e] := rfl
@[simp] theorem emit_cmd (e : Event) : (emit e s).cmd = s.cmd := rfl
@[simp] theorem emit_ports (e : Event) : (emit e s).ports = s.ports := rfl
@[simp] theorem emit_inputs (e : Event) : (emit e s).inputs = s.inputs := rfl
@[simp] theorem emit_samplerAt (e : Event) : (emit e s).samplerAt = s.samplerAt := rfl
@[simp] theorem emit_controlAt (e : Event) : (emit e s).controlAt = s.controlAt := rfl

/-! ### `answer` -/

@[simp] theorem answer_rf0 (st : Status) (v : Resp) : (answer st v s).rf0 = s.rf0 := rfl
@[simp] theorem answer_rf1 (st : Status) (v : Resp) : (answer st v s).rf1 = s.rf1 := rfl
@[simp] theorem answer_qdCnt (st : Status) (v : Resp) : (answer st v s).qdCnt = s.qdCnt := rfl
@[simp] theorem answer_qdPa (st : Status) (v : Resp) : (answer st v s).qdPa = s.qdPa := rfl
@[simp] theorem answer_qdPb (st : Status) (v : Resp) : (answer st v s).qdPb = s.qdPb := rfl
@[simp] theorem answer_qdRefEn (st : Status) (v : Resp) : (answer st v s).qdRefEn = s.qdRefEn := rfl
@[simp] theorem answer_smpGround (st : Status) (v : Resp) : (answer st v s).smpGround = s.smpGround := rfl
@[simp] theorem answer_smpCalDone (st : Status) (v : Resp) : (answer st v s).smpCalDone = s.smpCalDone := rfl
@[simp] theorem answer_chH (st : Status) (v : Resp) : (answer st v s).chH = s.chH := rfl
@[simp] theorem answer_chY (st : Status) (v : Resp) : (answer st v s).chY = s.chY := rfl
@[simp] theorem answer_tgtH (st : Status) (v : Resp) : (answer st v s).tgtH = s.tgtH := rfl
@[simp] theorem answer_tgtY (st : Status) (v : Resp) : (answer st v s).tgtY = s.tgtY := rfl
@[simp] theorem answer_pidH (st : Status) (v : Resp) : (answer st v s).pidH = s.pidH := rfl
@[simp] theorem answer_pidY (st : Status) (v : Resp) : (answer st v s).pidY = s.pidY := rfl
@[simp] theorem answer_ctlLastTicks (st : Status) (v : Resp) : (answer st v s).ctlLastTicks = s.ctlLastTicks := rfl
@[simp] theorem answer_hs (st : Status) (v : Resp) : (answer st v s).hs = s.hs := rfl
@[simp] theorem answer_fatalS (st : Status) (v : Resp) : (answer st v s).fatalS = s.fatalS := rfl
@[simp] theorem answer_fatalC (st : Status) (v : Resp) : (answer st v s).fatalC = s.fatalC := rfl
@[simp] theorem answer_fatalCauseS (st : Status) (v : Resp) : (answer st v s).fatalCauseS = s.fatalCauseS := rfl
@[simp] theorem answer_fatalCauseC (st : Status) (v : Resp) : (answer st v s).fatalCauseC = s.fatalCauseC := rfl
@[simp] theorem answer_resp (st : Status) (v : Resp) : (answer st v s).resp = v := rfl
@[simp] theorem answer_status (st : Status) (v : Resp) : (answer st v s).status = st := rfl
@[simp] theorem answer_trace (st : Status) (v : Resp) : (answer st v s).trace = s.trace := rfl
@[simp] theorem answer_cmd (st : Status) (v : Resp) : (answer st v s).cmd = s.cmd := rfl
@[simp] theorem answer_ports (st : Status) (v : Resp) : (answer st v s).ports = s.ports := rfl
@[simp] theorem answer_inputs (st : Status) (v : Resp) : (answer st v s).inputs = s.inputs := rfl
@[simp] theorem answer_samplerAt (st : Status) (v : Resp) : (answer st v s).samplerAt = s.samplerAt := rfl
@[simp] theorem answer_controlAt (st : Status) (v : Resp) : (answer st v s).controlAt = s.controlAt := rfl

/-! ### `respond` -/

@[simp] theorem respond_rf0 (v : Resp) : (respond v s).rf0 = s.rf0 := rfl
@[simp] theorem respond_rf1 (v : Resp) : (respond v s).rf1 = s.rf1 := rfl
@[simp] theorem respond_qdCnt (v : Resp) : (respond v s).qdCnt = s.qdCnt := rfl
@[simp] theorem respond_qdPa (v : Resp) : (respond v s).qdPa = s.qdPa := rfl
@[simp] theorem respond_qdPb (v : Resp) : (respond v s).qdPb = s.qdPb := rfl
@[simp] theorem respond_qdRefEn (v : Resp) : (respond v s).qdRefEn = s.qdRefEn := rfl
@[simp] theorem respond_smpGround (v : Resp) : (respond v s).smpGround = s.smpGround := rfl
@[simp] theorem respond_smpCalDone (v : Resp) : (respond v s).smpCalDone = s.smpCalDone := rfl
@[simp] theorem respond_chH (v : Resp) : (respond v s).chH = s.chH := rfl
@[simp] theorem respond_chY (v : Resp) : (respond v s).chY = s.chY := rfl
@[simp] theorem respond_tgtH (v : Resp) : (respond v s).tgtH = s.tgtH := rfl
@[simp] theorem respond_tgtY (v : Resp) : (respond v s).tgtY = s.tgtY := rfl
@[simp] theorem respond_pidH (v : Resp) : (respond v s).pidH = s.pidH := rfl
@[simp] theorem respond_pidY (v : Resp) : (respond v s).pidY = s.pidY := rfl
@[simp] theorem respond_ctlLastTicks (v : Resp) : (respond v s).ctlLastTicks = s.ctlLastTicks := rfl
@[simp] theorem respond_hs (v : Resp) : (respond v s).hs = s.hs := rfl
@[simp] theorem respond_fatalS (v : Resp) : (respond v s).fatalS = s.fatalS := rfl
@[simp] theorem respond_fatalC (v : Resp) : (respond v s).fatalC = s.fatalC := rfl
@[simp] theorem respond_fatalCauseS (v : Resp) : (respond v s).fatalCauseS = s.fatalCauseS := rfl
@[simp] theorem respond_fatalCauseC (v : Resp) : (respond v s).fatalCauseC = s.fatalCauseC := rfl
@[simp] theorem respond_resp (v : Resp) : (respond v s).resp = v := rfl
@[simp] theorem respond_status (v : Resp) : (respond v s).status = .ok := rfl
@[simp] theorem respond_trace (v : Resp) : (respond v s).trace = s.trace := rfl
@[simp] theorem respond_cmd (v : Resp) : (respond v s).cmd = s.cmd := rfl
@[simp] theorem respond_ports (v : Resp) : (respond v s).ports = s.ports := rfl
@[simp] theorem respond_inputs (v : Resp) : (respond v s).inputs = s.inputs := rfl
@[simp] theorem respond_samplerAt (v : Resp) : (respond v s).samplerAt = s.samplerAt := rfl
@[simp] theorem respond_controlAt (v : Resp) : (respond v s).controlAt = s.controlAt := rfl

/-! ### `turnAway` -/

@[simp] theorem turnAway_rf0 (st : Status) : (turnAway st s).rf0 = s.rf0 := rfl
@[simp] theorem turnAway_rf1 (st : Status) : (turnAway st s).rf1 = s.rf1 := rfl
@[simp] theorem turnAway_qdCnt (st : Status) : (turnAway st s).qdCnt = s.qdCnt := rfl
@[simp] theorem turnAway_qdPa (st : Status) : (turnAway st s).qdPa = s.qdPa := rfl
@[simp] theorem turnAway_qdPb (st : Status) : (turnAway st s).qdPb = s.qdPb := rfl
@[simp] theorem turnAway_qdRefEn (st : Status) : (turnAway st s).qdRefEn = s.qdRefEn := rfl
@[simp] theorem turnAway_smpGround (st : Status) : (turnAway st s).smpGround = s.smpGround := rfl
@[simp] theorem turnAway_smpCalDone (st : Status) : (turnAway st s).smpCalDone = s.smpCalDone := rfl
@[simp] theorem turnAway_chH (st : Status) : (turnAway st s).chH = s.chH := rfl
@[simp] theorem turnAway_chY (st : Status) : (turnAway st s).chY = s.chY := rfl
@[simp] theorem turnAway_tgtH (st : Status) : (turnAway st s).tgtH = s.tgtH := rfl
@[simp] theorem turnAway_tgtY (st : Status) : (turnAway st s).tgtY = s.tgtY := rfl
@[simp] theorem turnAway_pidH (st : Status) : (turnAway st s).pidH = s.pidH := rfl
@[simp] theorem turnAway_pidY (st : Status) : (turnAway st s).pidY = s.pidY := rfl
@[simp] theorem turnAway_ctlLastTicks (st : Status) : (turnAway st s).ctlLastTicks = s.ctlLastTicks := rfl
@[simp] theorem turnAway_hs (st : Status) : (turnAway st s).hs = s.hs := rfl
@[simp] theorem turnAway_fatalS (st : Status) : (turnAway st s).fatalS = s.fatalS := rfl
@[simp] theorem turnAway_fatalC (st : Status) : (turnAway st s).fatalC = s.fatalC := rfl
@[simp] theorem turnAway_fatalCauseS (st : Status) : (turnAway st s).fatalCauseS = s.fatalCauseS := rfl
@[simp] theorem turnAway_fatalCauseC (st : Status) : (turnAway st s).fatalCauseC = s.fatalCauseC := rfl
@[simp] theorem turnAway_resp (st : Status) : (turnAway st s).resp = 0#16 := rfl
@[simp] theorem turnAway_status (st : Status) : (turnAway st s).status = st := rfl
@[simp] theorem turnAway_trace (st : Status) : (turnAway st s).trace = s.trace := rfl
@[simp] theorem turnAway_cmd (st : Status) : (turnAway st s).cmd = s.cmd := rfl
@[simp] theorem turnAway_ports (st : Status) : (turnAway st s).ports = s.ports := rfl
@[simp] theorem turnAway_inputs (st : Status) : (turnAway st s).inputs = s.inputs := rfl
@[simp] theorem turnAway_samplerAt (st : Status) : (turnAway st s).samplerAt = s.samplerAt := rfl
@[simp] theorem turnAway_controlAt (st : Status) : (turnAway st s).controlAt = s.controlAt := rfl

/-! ### `raiseFatal` -/

@[simp] theorem raiseFatal_rf0 (t : Task) (c : Cause) (ch : Option Channel) : (raiseFatal t c ch s).rf0 = s.rf0 := by cases t <;> rfl
@[simp] theorem raiseFatal_rf1 (t : Task) (c : Cause) (ch : Option Channel) : (raiseFatal t c ch s).rf1 = s.rf1 := by cases t <;> rfl
@[simp] theorem raiseFatal_qdCnt (t : Task) (c : Cause) (ch : Option Channel) : (raiseFatal t c ch s).qdCnt = s.qdCnt := by cases t <;> rfl
@[simp] theorem raiseFatal_qdPa (t : Task) (c : Cause) (ch : Option Channel) : (raiseFatal t c ch s).qdPa = s.qdPa := by cases t <;> rfl
@[simp] theorem raiseFatal_qdPb (t : Task) (c : Cause) (ch : Option Channel) : (raiseFatal t c ch s).qdPb = s.qdPb := by cases t <;> rfl
@[simp] theorem raiseFatal_qdRefEn (t : Task) (c : Cause) (ch : Option Channel) : (raiseFatal t c ch s).qdRefEn = s.qdRefEn := by cases t <;> rfl
@[simp] theorem raiseFatal_smpGround (t : Task) (c : Cause) (ch : Option Channel) : (raiseFatal t c ch s).smpGround = s.smpGround := by cases t <;> rfl
@[simp] theorem raiseFatal_smpCalDone (t : Task) (c : Cause) (ch : Option Channel) : (raiseFatal t c ch s).smpCalDone = s.smpCalDone := by cases t <;> rfl
@[simp] theorem raiseFatal_chH (t : Task) (c : Cause) (ch : Option Channel) : (raiseFatal t c ch s).chH = s.chH := by cases t <;> rfl
@[simp] theorem raiseFatal_chY (t : Task) (c : Cause) (ch : Option Channel) : (raiseFatal t c ch s).chY = s.chY := by cases t <;> rfl
@[simp] theorem raiseFatal_tgtH (t : Task) (c : Cause) (ch : Option Channel) : (raiseFatal t c ch s).tgtH = s.tgtH := by cases t <;> rfl
@[simp] theorem raiseFatal_tgtY (t : Task) (c : Cause) (ch : Option Channel) : (raiseFatal t c ch s).tgtY = s.tgtY := by cases t <;> rfl
@[simp] theorem raiseFatal_pidH (t : Task) (c : Cause) (ch : Option Channel) : (raiseFatal t c ch s).pidH = s.pidH := by cases t <;> rfl
@[simp] theorem raiseFatal_pidY (t : Task) (c : Cause) (ch : Option Channel) : (raiseFatal t c ch s).pidY = s.pidY := by cases t <;> rfl
@[simp] theorem raiseFatal_ctlLastTicks (t : Task) (c : Cause) (ch : Option Channel) : (raiseFatal t c ch s).ctlLastTicks = s.ctlLastTicks := by cases t <;> rfl
@[simp] theorem raiseFatal_hs (t : Task) (c : Cause) (ch : Option Channel) : (raiseFatal t c ch s).hs = s.hs := by cases t <;> rfl
@[simp] theorem raiseFatal_fatalS (t : Task) (c : Cause) (ch : Option Channel) : (raiseFatal t c ch s).fatalS = (decide (t = .sampler) || s.fatalS) := by cases t <;> rfl
@[simp] theorem raiseFatal_fatalC (t : Task) (c : Cause) (ch : Option Channel) : (raiseFatal t c ch s).fatalC = (decide (t = .control) || s.fatalC) := by cases t <;> rfl
@[simp] theorem raiseFatal_fatalCauseS (t : Task) (c : Cause) (ch : Option Channel) : (raiseFatal t c ch s).fatalCauseS = if t = .sampler then causeCode c ch else s.fatalCauseS := by cases t <;> rfl
@[simp] theorem raiseFatal_fatalCauseC (t : Task) (c : Cause) (ch : Option Channel) : (raiseFatal t c ch s).fatalCauseC = if t = .control then causeCode c ch else s.fatalCauseC := by cases t <;> rfl
@[simp] theorem raiseFatal_resp (t : Task) (c : Cause) (ch : Option Channel) : (raiseFatal t c ch s).resp = 0#16 := by cases t <;> rfl
@[simp] theorem raiseFatal_status (t : Task) (c : Cause) (ch : Option Channel) : (raiseFatal t c ch s).status = .fatal := by cases t <;> rfl
@[simp] theorem raiseFatal_trace (t : Task) (c : Cause) (ch : Option Channel) : (raiseFatal t c ch s).trace = s.trace ++ [.fatal t c ch] := by cases t <;> rfl
@[simp] theorem raiseFatal_cmd (t : Task) (c : Cause) (ch : Option Channel) : (raiseFatal t c ch s).cmd = s.cmd := by cases t <;> rfl
@[simp] theorem raiseFatal_ports (t : Task) (c : Cause) (ch : Option Channel) : (raiseFatal t c ch s).ports = s.ports := by cases t <;> rfl
@[simp] theorem raiseFatal_inputs (t : Task) (c : Cause) (ch : Option Channel) : (raiseFatal t c ch s).inputs = s.inputs := by cases t <;> rfl
@[simp] theorem raiseFatal_samplerAt (t : Task) (c : Cause) (ch : Option Channel) : (raiseFatal t c ch s).samplerAt = s.samplerAt := by cases t <;> rfl
@[simp] theorem raiseFatal_controlAt (t : Task) (c : Cause) (ch : Option Channel) : (raiseFatal t c ch s).controlAt = s.controlAt := by cases t <;> rfl

/-! ### `pushSample` -/

@[simp] theorem pushSample_rf0 (i : Ring) (v : RawSample) : (pushSample i v s).rf0 = if i = .height then ringPush s.rf0 v else s.rf0 := by cases i <;> rfl
@[simp] theorem pushSample_rf1 (i : Ring) (v : RawSample) : (pushSample i v s).rf1 = if i = .pot then ringPush s.rf1 v else s.rf1 := by cases i <;> rfl
@[simp] theorem pushSample_qdCnt (i : Ring) (v : RawSample) : (pushSample i v s).qdCnt = s.qdCnt := by cases i <;> rfl
@[simp] theorem pushSample_qdPa (i : Ring) (v : RawSample) : (pushSample i v s).qdPa = s.qdPa := by cases i <;> rfl
@[simp] theorem pushSample_qdPb (i : Ring) (v : RawSample) : (pushSample i v s).qdPb = s.qdPb := by cases i <;> rfl
@[simp] theorem pushSample_qdRefEn (i : Ring) (v : RawSample) : (pushSample i v s).qdRefEn = s.qdRefEn := by cases i <;> rfl
@[simp] theorem pushSample_smpGround (i : Ring) (v : RawSample) : (pushSample i v s).smpGround = s.smpGround := by cases i <;> rfl
@[simp] theorem pushSample_smpCalDone (i : Ring) (v : RawSample) : (pushSample i v s).smpCalDone = s.smpCalDone := by cases i <;> rfl
@[simp] theorem pushSample_chH (i : Ring) (v : RawSample) : (pushSample i v s).chH = s.chH := by cases i <;> rfl
@[simp] theorem pushSample_chY (i : Ring) (v : RawSample) : (pushSample i v s).chY = s.chY := by cases i <;> rfl
@[simp] theorem pushSample_tgtH (i : Ring) (v : RawSample) : (pushSample i v s).tgtH = s.tgtH := by cases i <;> rfl
@[simp] theorem pushSample_tgtY (i : Ring) (v : RawSample) : (pushSample i v s).tgtY = s.tgtY := by cases i <;> rfl
@[simp] theorem pushSample_pidH (i : Ring) (v : RawSample) : (pushSample i v s).pidH = s.pidH := by cases i <;> rfl
@[simp] theorem pushSample_pidY (i : Ring) (v : RawSample) : (pushSample i v s).pidY = s.pidY := by cases i <;> rfl
@[simp] theorem pushSample_ctlLastTicks (i : Ring) (v : RawSample) : (pushSample i v s).ctlLastTicks = s.ctlLastTicks := by cases i <;> rfl
@[simp] theorem pushSample_hs (i : Ring) (v : RawSample) : (pushSample i v s).hs = s.hs := by cases i <;> rfl
@[simp] theorem pushSample_fatalS (i : Ring) (v : RawSample) : (pushSample i v s).fatalS = s.fatalS := by cases i <;> rfl
@[simp] theorem pushSample_fatalC (i : Ring) (v : RawSample) : (pushSample i v s).fatalC = s.fatalC := by cases i <;> rfl
@[simp] theorem pushSample_fatalCauseS (i : Ring) (v : RawSample) : (pushSample i v s).fatalCauseS = s.fatalCauseS := by cases i <;> rfl
@[simp] theorem pushSample_fatalCauseC (i : Ring) (v : RawSample) : (pushSample i v s).fatalCauseC = s.fatalCauseC := by cases i <;> rfl
@[simp] theorem pushSample_resp (i : Ring) (v : RawSample) : (pushSample i v s).resp = s.resp := by cases i <;> rfl
@[simp] theorem pushSample_status (i : Ring) (v : RawSample) : (pushSample i v s).status = s.status := by cases i <;> rfl
@[simp] theorem pushSample_trace (i : Ring) (v : RawSample) : (pushSample i v s).trace = s.trace := by cases i <;> rfl
@[simp] theorem pushSample_cmd (i : Ring) (v : RawSample) : (pushSample i v s).cmd = s.cmd := by cases i <;> rfl
@[simp] theorem pushSample_ports (i : Ring) (v : RawSample) : (pushSample i v s).ports = s.ports := by cases i <;> rfl
@[simp] theorem pushSample_inputs (i : Ring) (v : RawSample) : (pushSample i v s).inputs = s.inputs := by cases i <;> rfl
@[simp] theorem pushSample_samplerAt (i : Ring) (v : RawSample) : (pushSample i v s).samplerAt = s.samplerAt := by cases i <;> rfl
@[simp] theorem pushSample_controlAt (i : Ring) (v : RawSample) : (pushSample i v s).controlAt = s.controlAt := by cases i <;> rfl

/-! ### `latch` -/

@[simp] theorem latch_rf0 (w : Word) (q : Ports) : (latch w q s).rf0 = s.rf0 := rfl
@[simp] theorem latch_rf1 (w : Word) (q : Ports) : (latch w q s).rf1 = s.rf1 := rfl
@[simp] theorem latch_qdCnt (w : Word) (q : Ports) : (latch w q s).qdCnt = s.qdCnt := rfl
@[simp] theorem latch_qdPa (w : Word) (q : Ports) : (latch w q s).qdPa = s.qdPa := rfl
@[simp] theorem latch_qdPb (w : Word) (q : Ports) : (latch w q s).qdPb = s.qdPb := rfl
@[simp] theorem latch_qdRefEn (w : Word) (q : Ports) : (latch w q s).qdRefEn = s.qdRefEn := rfl
@[simp] theorem latch_smpGround (w : Word) (q : Ports) : (latch w q s).smpGround = s.smpGround := rfl
@[simp] theorem latch_smpCalDone (w : Word) (q : Ports) : (latch w q s).smpCalDone = s.smpCalDone := rfl
@[simp] theorem latch_chH (w : Word) (q : Ports) : (latch w q s).chH = s.chH := rfl
@[simp] theorem latch_chY (w : Word) (q : Ports) : (latch w q s).chY = s.chY := rfl
@[simp] theorem latch_tgtH (w : Word) (q : Ports) : (latch w q s).tgtH = s.tgtH := rfl
@[simp] theorem latch_tgtY (w : Word) (q : Ports) : (latch w q s).tgtY = s.tgtY := rfl
@[simp] theorem latch_pidH (w : Word) (q : Ports) : (latch w q s).pidH = s.pidH := rfl
@[simp] theorem latch_pidY (w : Word) (q : Ports) : (latch w q s).pidY = s.pidY := rfl
@[simp] theorem latch_ctlLastTicks (w : Word) (q : Ports) : (latch w q s).ctlLastTicks = s.ctlLastTicks := rfl
@[simp] theorem latch_hs (w : Word) (q : Ports) : (latch w q s).hs = s.hs := rfl
@[simp] theorem latch_fatalS (w : Word) (q : Ports) : (latch w q s).fatalS = s.fatalS := rfl
@[simp] theorem latch_fatalC (w : Word) (q : Ports) : (latch w q s).fatalC = s.fatalC := rfl
@[simp] theorem latch_fatalCauseS (w : Word) (q : Ports) : (latch w q s).fatalCauseS = s.fatalCauseS := rfl
@[simp] theorem latch_fatalCauseC (w : Word) (q : Ports) : (latch w q s).fatalCauseC = s.fatalCauseC := rfl
@[simp] theorem latch_resp (w : Word) (q : Ports) : (latch w q s).resp = s.resp := rfl
@[simp] theorem latch_status (w : Word) (q : Ports) : (latch w q s).status = s.status := rfl
@[simp] theorem latch_trace (w : Word) (q : Ports) : (latch w q s).trace = s.trace := rfl
@[simp] theorem latch_cmd (w : Word) (q : Ports) : (latch w q s).cmd = w := rfl
@[simp] theorem latch_ports (w : Word) (q : Ports) : (latch w q s).ports = q := rfl
@[simp] theorem latch_inputs (w : Word) (q : Ports) : (latch w q s).inputs = s.inputs := rfl
@[simp] theorem latch_samplerAt (w : Word) (q : Ports) : (latch w q s).samplerAt = s.samplerAt := rfl
@[simp] theorem latch_controlAt (w : Word) (q : Ports) : (latch w q s).controlAt = s.controlAt := rfl

/-! ### `calibrate` -/

@[simp] theorem calibrate_rf0 (m : Nat) : (calibrate m s).rf0 = s.rf0 := by
  unfold calibrate; split <;> rfl
@[simp] theorem calibrate_rf1 (m : Nat) : (calibrate m s).rf1 = s.rf1 := by
  unfold calibrate; split <;> rfl
@[simp] theorem calibrate_qdCnt (m : Nat) : (calibrate m s).qdCnt = s.qdCnt := by
  unfold calibrate; split <;> rfl
@[simp] theorem calibrate_qdPa (m : Nat) : (calibrate m s).qdPa = s.qdPa := by
  unfold calibrate; split <;> rfl
@[simp] theorem calibrate_qdPb (m : Nat) : (calibrate m s).qdPb = s.qdPb := by
  unfold calibrate; split <;> rfl
@[simp] theorem calibrate_qdRefEn (m : Nat) : (calibrate m s).qdRefEn = s.qdRefEn := by
  unfold calibrate; split <;> rfl
@[simp] theorem calibrate_smpGround (m : Nat) : (calibrate m s).smpGround = if s.smpCalDone = false ∧ s.tgtH = 0 then BitVec.ofNat 12 m else s.smpGround := by
  unfold calibrate; split <;> rfl
@[simp] theorem calibrate_smpCalDone (m : Nat) : (calibrate m s).smpCalDone = (s.smpCalDone || decide (s.tgtH = 0)) := by
  cases h : s.smpCalDone <;> by_cases h2 : s.tgtH = 0 <;> simp [calibrate, h, h2]
@[simp] theorem calibrate_chH (m : Nat) : (calibrate m s).chH = s.chH := by
  unfold calibrate; split <;> rfl
@[simp] theorem calibrate_chY (m : Nat) : (calibrate m s).chY = s.chY := by
  unfold calibrate; split <;> rfl
@[simp] theorem calibrate_tgtH (m : Nat) : (calibrate m s).tgtH = s.tgtH := by
  unfold calibrate; split <;> rfl
@[simp] theorem calibrate_tgtY (m : Nat) : (calibrate m s).tgtY = s.tgtY := by
  unfold calibrate; split <;> rfl
@[simp] theorem calibrate_pidH (m : Nat) : (calibrate m s).pidH = s.pidH := by
  unfold calibrate; split <;> rfl
@[simp] theorem calibrate_pidY (m : Nat) : (calibrate m s).pidY = s.pidY := by
  unfold calibrate; split <;> rfl
@[simp] theorem calibrate_ctlLastTicks (m : Nat) : (calibrate m s).ctlLastTicks = s.ctlLastTicks := by
  unfold calibrate; split <;> rfl
@[simp] theorem calibrate_hs (m : Nat) : (calibrate m s).hs = s.hs := by
  unfold calibrate; split <;> rfl
@[simp] theorem calibrate_fatalS (m : Nat) : (calibrate m s).fatalS = s.fatalS := by
  unfold calibrate; split <;> rfl
@[simp] theorem calibrate_fatalC (m : Nat) : (calibrate m s).fatalC = s.fatalC := by
  unfold calibrate; split <;> rfl
@[simp] theorem calibrate_fatalCauseS (m : Nat) : (calibrate m s).fatalCauseS = s.fatalCauseS := by
  unfold calibrate; split <;> rfl
@[simp] theorem calibrate_fatalCauseC (m : Nat) : (calibrate m s).fatalCauseC = s.fatalCauseC := by
  unfold calibrate; split <;> rfl
@[simp] theorem calibrate_resp (m : Nat) : (calibrate m s).resp = s.resp := by
  unfold calibrate; split <;> rfl
@[simp] theorem calibrate_status (m : Nat) : (calibrate m s).status = s.status := by
  unfold calibrate; split <;> rfl
@[simp] theorem calibrate_trace (m : Nat) : (calibrate m s).trace = s.trace := by
  unfold calibrate; split <;> rfl
@[simp] theorem calibrate_cmd (m : Nat) : (calibrate m s).cmd = s.cmd := by
  unfold calibrate; split <;> rfl
@[simp] theorem calibrate_ports (m : Nat) : (calibrate m s).ports = s.ports := by
  unfold calibrate; split <;> rfl
@[simp] theorem calibrate_inputs (m : Nat) : (calibrate m s).inputs = s.inputs := by
  unfold calibrate; split <;> rfl
@[simp] theorem calibrate_samplerAt (m : Nat) : (calibrate m s).samplerAt = s.samplerAt := by
  unfold calibrate; split <;> rfl
@[simp] theorem calibrate_controlAt (m : Nat) : (calibrate m s).controlAt = s.controlAt := by
  unfold calibrate; split <;> rfl

/-! ### `noteTicks` -/

@[simp] theorem noteTicks_rf0 (p : Config.Params) : (noteTicks p s).rf0 = s.rf0 := by unfold noteTicks; split <;> simp
@[simp] theorem noteTicks_rf1 (p : Config.Params) : (noteTicks p s).rf1 = s.rf1 := by unfold noteTicks; split <;> simp
@[simp] theorem noteTicks_qdCnt (p : Config.Params) : (noteTicks p s).qdCnt = s.qdCnt := by unfold noteTicks; split <;> simp
@[simp] theorem noteTicks_qdPa (p : Config.Params) : (noteTicks p s).qdPa = s.qdPa := by unfold noteTicks; split <;> simp
@[simp] theorem noteTicks_qdPb (p : Config.Params) : (noteTicks p s).qdPb = s.qdPb := by unfold noteTicks; split <;> simp
@[simp] theorem noteTicks_qdRefEn (p : Config.Params) : (noteTicks p s).qdRefEn = s.qdRefEn := by unfold noteTicks; split <;> simp
@[simp] theorem noteTicks_smpGround (p : Config.Params) : (noteTicks p s).smpGround = s.smpGround := by unfold noteTicks; split <;> simp
@[simp] theorem noteTicks_smpCalDone (p : Config.Params) : (noteTicks p s).smpCalDone = s.smpCalDone := by unfold noteTicks; split <;> simp
@[simp] theorem noteTicks_chH (p : Config.Params) : (noteTicks p s).chH = s.chH := by unfold noteTicks; split <;> simp
@[simp] theorem noteTicks_chY (p : Config.Params) : (noteTicks p s).chY = s.chY := by unfold noteTicks; split <;> simp
@[simp] theorem noteTicks_tgtH (p : Config.Params) : (noteTicks p s).tgtH = s.tgtH := by unfold noteTicks; split <;> simp
@[simp] theorem noteTicks_tgtY (p : Config.Params) : (noteTicks p s).tgtY = s.tgtY := by unfold noteTicks; split <;> simp
@[simp] theorem noteTicks_pidH (p : Config.Params) : (noteTicks p s).pidH = s.pidH := by unfold noteTicks; split <;> simp
@[simp] theorem noteTicks_pidY (p : Config.Params) : (noteTicks p s).pidY = s.pidY := by unfold noteTicks; split <;> simp
@[simp] theorem noteTicks_ctlLastTicks (p : Config.Params) : (noteTicks p s).ctlLastTicks = if s.ports.ticks.toNat < p.const.reloadThreshold then p.const.reloadValue else s.ports.ticks := by unfold noteTicks; split <;> simp
@[simp] theorem noteTicks_hs (p : Config.Params) : (noteTicks p s).hs = s.hs := by unfold noteTicks; split <;> simp
@[simp] theorem noteTicks_fatalS (p : Config.Params) : (noteTicks p s).fatalS = s.fatalS := by unfold noteTicks; split <;> simp
@[simp] theorem noteTicks_fatalC (p : Config.Params) : (noteTicks p s).fatalC = s.fatalC := by unfold noteTicks; split <;> simp
@[simp] theorem noteTicks_fatalCauseS (p : Config.Params) : (noteTicks p s).fatalCauseS = s.fatalCauseS := by unfold noteTicks; split <;> simp
@[simp] theorem noteTicks_fatalCauseC (p : Config.Params) : (noteTicks p s).fatalCauseC = s.fatalCauseC := by unfold noteTicks; split <;> simp
@[simp] theorem noteTicks_resp (p : Config.Params) : (noteTicks p s).resp = s.resp := by unfold noteTicks; split <;> simp
@[simp] theorem noteTicks_status (p : Config.Params) : (noteTicks p s).status = s.status := by unfold noteTicks; split <;> simp
@[simp] theorem noteTicks_trace (p : Config.Params) : (noteTicks p s).trace = s.trace ++ (if s.ports.ticks.toNat < p.const.reloadThreshold then [.timerReload] else []) := by unfold noteTicks; split <;> simp
@[simp] theorem noteTicks_cmd (p : Config.Params) : (noteTicks p s).cmd = s.cmd := by unfold noteTicks; split <;> simp
@[simp] theorem noteTicks_ports (p : Config.Params) : (noteTicks p s).ports = s.ports := by unfold noteTicks; split <;> simp
@[simp] theorem noteTicks_inputs (p : Config.Params) : (noteTicks p s).inputs = s.inputs := by unfold noteTicks; split <;> simp
@[simp] theorem noteTicks_samplerAt (p : Config.Params) : (noteTicks p s).samplerAt = s.samplerAt := by unfold noteTicks; split <;> simp
@[simp] theorem noteTicks_controlAt (p : Config.Params) : (noteTicks p s).controlAt = s.controlAt := by unfold noteTicks; split <;> simp

/-! ### `resetSession` -/

@[simp] theorem resetSession_cmd : (resetSession s).cmd = s.cmd := rfl
@[simp] theorem resetSession_ports : (resetSession s).ports = s.ports := rfl
@[simp] theorem resetSession_status : (resetSession s).status = s.status := rfl
@[simp] theorem resetSession_resp : (resetSession s).resp = s.resp := rfl
@[simp] theorem resetSession_inputs : (resetSession s).inputs = s.inputs := rfl

end Sys2Proof.Machine
end

