-- ==== Sys2Proof/Laws/Ops.lean ====
section
/-! SUPPORT. What each shared operation can do, said once: a publication, a gate operation, `SMP_RUN` and `CTL_RUN`. -/

namespace Sys2Proof.Machine

/-- A publication raises the fatal halt exactly when its mailbox is full (R258). -/
theorem publish_cases (task : Task) (ch : Channel) (v : Int) (k : State → State) (s : State) :
    (portFull ch s = true ∧ publish task ch v k s = raiseFatal task .mailboxOverflow (some ch) s) ∨
    (portFull ch s = false ∧ publish task ch v k s = k (emit (.pub ch v) s)) := by
  unfold publish; cases h : portFull ch s <;> simp

/-- The three outcomes of a take (R231, R233). -/
theorem takeGate_cases (task : Task) (src dst : Handoff) (s : State) :
    (halted task s = true ∧ takeGate task src dst s = turnAway .halted s) ∨
    (halted task s = false ∧ s.hs = src ∧ takeGate task src dst s = respond 0#16 { s with hs := dst }) ∨
    (halted task s = false ∧ s.hs ≠ src ∧ takeGate task src dst s = turnAway .blocked s) := by
  unfold takeGate; cases h : halted task s <;> by_cases h2 : s.hs = src <;> simp [h2]

/-- The three outcomes of a give (R232, R234). -/
theorem giveGate_cases (task : Task) (src dst : Handoff) (s : State) :
    (halted task s = true ∧ giveGate task src dst s = turnAway .halted s) ∨
    (halted task s = false ∧ s.hs = src ∧ giveGate task src dst s = respond 0#16 { s with hs := dst }) ∨
    (halted task s = false ∧ s.hs ≠ src ∧ giveGate task src dst s = turnAway .protocol s) := by
  unfold giveGate; cases h : halted task s <;> by_cases h2 : s.hs = src <;> simp [h2]

/-- Calibration as one update of two registers (R161). -/
theorem calibrate_eq (m : Nat) (s : State) :
    calibrate m s = { s with
      smpGround := if s.smpCalDone = false ∧ s.tgtH = 0 then BitVec.ofNat 12 m else s.smpGround
      smpCalDone := s.smpCalDone || decide (s.tgtH = 0) } := by
  unfold calibrate
  cases h1 : s.smpCalDone <;> by_cases h2 : s.tgtH = 0 <;> simp [h2] <;> (try rw [← h1]; try rw [← h2])

/-- Steps 1 to 6 of `SMP_RUN` as one update of five registers (R160). -/
theorem smpWork_eq (p : Config.Params) (r : RawSample) (s : State) :
    smpWork p r s = { s with
      rf0 := ringPush s.rf0 r
      smpGround := (smpWork p r s).smpGround
      smpCalDone := s.smpCalDone || decide (s.tgtH = 0)
      chH := BitVec.ofNat 12 (heightAbove (smpWork p r s).smpGround.toNat (ringMean (ringPush s.rf0 r)))
      chY := BitVec.ofInt 9 (yawDeg p s.qdCnt.toInt) } := by
  unfold smpWork smpSample; rw [calibrate_eq]; rfl

/-- The ground register after steps 1 to 6 of `SMP_RUN` (R161). -/
theorem smpWork_smpGround (p : Config.Params) (r : RawSample) (s : State) :
    (smpWork p r s).smpGround =
      if s.smpCalDone = false ∧ s.tgtH = 0 then BitVec.ofNat 12 (ringMean (ringPush s.rf0 r)) else s.smpGround := by
  unfold smpWork smpSample; rw [calibrate_eq]; rfl

/-- The height `SMP_RUN` publishes (R162). -/
theorem smpHeight_smpWork (p : Config.Params) (r : RawSample) (s : State) :
    smpHeight (smpWork p r s) = heightAbove (smpWork p r s).smpGround.toNat (ringMean (ringPush s.rf0 r)) := by
  rw [smpWork_eq]; rfl

/-- The end of step 2 of `CTL_RUN` as one update (R183). -/
theorem noteTicks_eq (p : Config.Params) (s : State) :
    noteTicks p s = { s with
      ctlLastTicks := if s.ports.ticks.toNat < p.const.reloadThreshold then p.const.reloadValue else s.ports.ticks
      trace := s.trace ++ if s.ports.ticks.toNat < p.const.reloadThreshold then [.timerReload] else [] } := by
  unfold noteTicks; by_cases h : s.ports.ticks.toNat < p.const.reloadThreshold <;> simp [h, emit]

/-! ### What `SMP_RUN`'s work leaves alone -/

@[simp] theorem smpWork_rf1 (p : Config.Params) (r : RawSample) (s : State) : (smpWork p r s).rf1 = s.rf1 := by
  rw [smpWork_eq]
@[simp] theorem smpWork_qdCnt (p : Config.Params) (r : RawSample) (s : State) : (smpWork p r s).qdCnt = s.qdCnt := by
  rw [smpWork_eq]
@[simp] theorem smpWork_qdPa (p : Config.Params) (r : RawSample) (s : State) : (smpWork p r s).qdPa = s.qdPa := by
  rw [smpWork_eq]
@[simp] theorem smpWork_qdPb (p : Config.Params) (r : RawSample) (s : State) : (smpWork p r s).qdPb = s.qdPb := by
  rw [smpWork_eq]
@[simp] theorem smpWork_qdRefEn (p : Config.Params) (r : RawSample) (s : State) : (smpWork p r s).qdRefEn = s.qdRefEn := by
  rw [smpWork_eq]
@[simp] theorem smpWork_tgtH (p : Config.Params) (r : RawSample) (s : State) : (smpWork p r s).tgtH = s.tgtH := by
  rw [smpWork_eq]
@[simp] theorem smpWork_tgtY (p : Config.Params) (r : RawSample) (s : State) : (smpWork p r s).tgtY = s.tgtY := by
  rw [smpWork_eq]
@[simp] theorem smpWork_pidH (p : Config.Params) (r : RawSample) (s : State) : (smpWork p r s).pidH = s.pidH := by
  rw [smpWork_eq]
@[simp] theorem smpWork_pidY (p : Config.Params) (r : RawSample) (s : State) : (smpWork p r s).pidY = s.pidY := by
  rw [smpWork_eq]
@[simp] theorem smpWork_ctlLastTicks (p : Config.Params) (r : RawSample) (s : State) : (smpWork p r s).ctlLastTicks = s.ctlLastTicks := by
  rw [smpWork_eq]
@[simp] theorem smpWork_hs (p : Config.Params) (r : RawSample) (s : State) : (smpWork p r s).hs = s.hs := by
  rw [smpWork_eq]
@[simp] theorem smpWork_fatalS (p : Config.Params) (r : RawSample) (s : State) : (smpWork p r s).fatalS = s.fatalS := by
  rw [smpWork_eq]
@[simp] theorem smpWork_fatalC (p : Config.Params) (r : RawSample) (s : State) : (smpWork p r s).fatalC = s.fatalC := by
  rw [smpWork_eq]
@[simp] theorem smpWork_fatalCauseS (p : Config.Params) (r : RawSample) (s : State) : (smpWork p r s).fatalCauseS = s.fatalCauseS := by
  rw [smpWork_eq]
@[simp] theorem smpWork_fatalCauseC (p : Config.Params) (r : RawSample) (s : State) : (smpWork p r s).fatalCauseC = s.fatalCauseC := by
  rw [smpWork_eq]
@[simp] theorem smpWork_resp (p : Config.Params) (r : RawSample) (s : State) : (smpWork p r s).resp = s.resp := by
  rw [smpWork_eq]
@[simp] theorem smpWork_status (p : Config.Params) (r : RawSample) (s : State) : (smpWork p r s).status = s.status := by
  rw [smpWork_eq]
@[simp] theorem smpWork_trace (p : Config.Params) (r : RawSample) (s : State) : (smpWork p r s).trace = s.trace := by
  rw [smpWork_eq]
@[simp] theorem smpWork_cmd (p : Config.Params) (r : RawSample) (s : State) : (smpWork p r s).cmd = s.cmd := by
  rw [smpWork_eq]
@[simp] theorem smpWork_ports (p : Config.Params) (r : RawSample) (s : State) : (smpWork p r s).ports = s.ports := by
  rw [smpWork_eq]
@[simp] theorem smpWork_inputs (p : Config.Params) (r : RawSample) (s : State) : (smpWork p r s).inputs = s.inputs := by
  rw [smpWork_eq]
@[simp] theorem smpWork_samplerAt (p : Config.Params) (r : RawSample) (s : State) : (smpWork p r s).samplerAt = s.samplerAt := by
  rw [smpWork_eq]
@[simp] theorem smpWork_controlAt (p : Config.Params) (r : RawSample) (s : State) : (smpWork p r s).controlAt = s.controlAt := by
  rw [smpWork_eq]

/-- The five outcomes of `SMP_RUN` (R160): turned away twice, halted at step 7 or 8, or completed. -/
theorem smpRunWith_cases (p : Config.Params) (r : RawSample) (s : State) :
    let w := smpWork p r (emit .samplerRun s)
    let w7 := emit (.pub .dispH (smpHeight w)) w
    (s.fatalS = true ∧ smpRunWith p r s = turnAway .halted s) ∨
    (s.fatalS = false ∧ s.hs ≠ .smp ∧ smpRunWith p r s = turnAway .protocol s) ∨
    (s.fatalS = false ∧ s.hs = .smp ∧ portFull .dispH w = true ∧
      smpRunWith p r s = raiseFatal .sampler .mailboxOverflow (some .dispH) w) ∨
    (s.fatalS = false ∧ s.hs = .smp ∧ portFull .dispH w = false ∧ portFull .dispY w7 = true ∧
      smpRunWith p r s = raiseFatal .sampler .mailboxOverflow (some .dispY) w7) ∨
    (s.fatalS = false ∧ s.hs = .smp ∧ portFull .dispH w = false ∧ portFull .dispY w7 = false ∧
      smpRunWith p r s = respond 0#16 (emit (.pub .dispY (currentYaw p w)) w7)) := by
  intro w w7
  unfold smpRunWith
  cases hf : s.fatalS
  · by_cases hh : s.hs = .smp
    · simp only [hh, ne_eq, not_true_eq_false, false_and, if_false, true_and, Bool.false_eq_true, false_or]
      unfold smpPublish
      rcases publish_cases .sampler .dispH (smpHeight w) (publish .sampler .dispY (currentYaw p w) (respond 0#16)) w
        with ⟨h, e⟩ | ⟨h, e⟩
      · exact .inl ⟨h, e⟩
      · right
        rcases publish_cases .sampler .dispY (currentYaw p w) (respond 0#16) w7 with ⟨h', e'⟩ | ⟨h', e'⟩
        · exact .inl ⟨h, h', e.trans e'⟩
        · exact .inr ⟨h, h', e.trans e'⟩
    · simp [hh]
  · simp

/-- The six outcomes of `CTL_RUN` (R180): turned away twice, halted at step 2, 7 or 12, or completed. -/
theorem ctlRunWith_cases (p : Config.Params) (s : State) :
    let dt := cycleDt p s
    let w := noteTicks p (emit .controlRun s)
    let w5 : State := { w with pidH := (heightStep p dt w).1 }
    let w7 := emit (.pub .actH (heightDuty p dt w)) w5
    let w10 : State := { w7 with pidY := (yawStep p dt w7).1 }
    (s.fatalC = true ∧ ctlRunWith p s = turnAway .halted s) ∨
    (s.fatalC = false ∧ s.hs ≠ .ctl ∧ ctlRunWith p s = turnAway .protocol s) ∨
    (s.fatalC = false ∧ s.hs = .ctl ∧ elapsed s.ctlLastTicks s.ports.ticks ≤ 0 ∧
      ctlRunWith p s = raiseFatal .control .dtNotPositive none (emit .controlRun s)) ∨
    (s.fatalC = false ∧ s.hs = .ctl ∧ 0 < elapsed s.ctlLastTicks s.ports.ticks ∧ portFull .actH w5 = true ∧
      ctlRunWith p s = raiseFatal .control .mailboxOverflow (some .actH) w5) ∨
    (s.fatalC = false ∧ s.hs = .ctl ∧ 0 < elapsed s.ctlLastTicks s.ports.ticks ∧ portFull .actH w5 = false ∧
      portFull .actY w10 = true ∧ ctlRunWith p s = raiseFatal .control .mailboxOverflow (some .actY) w10) ∨
    (s.fatalC = false ∧ s.hs = .ctl ∧ 0 < elapsed s.ctlLastTicks s.ports.ticks ∧ portFull .actH w5 = false ∧
      portFull .actY w10 = false ∧ ctlRunWith p s = respond 0#16 (emit (.pub .actY (yawDuty p dt w7)) w10)) := by
  intro dt w w5 w7 w10
  unfold ctlRunWith
  cases hf : s.fatalC
  · by_cases hh : s.hs = .ctl
    · by_cases he : elapsed s.ctlLastTicks s.ports.ticks ≤ 0
      · simp [hh, he]
      · have hp : 0 < elapsed s.ctlLastTicks s.ports.ticks := by omega
        simp only [hh, he, hp, ne_eq, not_true_eq_false, false_and, if_false, true_and,
          Bool.false_eq_true, false_or]
        unfold ctlAxes
        rcases publish_cases .control .actH (heightDuty p dt w) (ctlYaw p dt) w5 with ⟨h, e⟩ | ⟨h, e⟩
        · exact .inl ⟨h, e⟩
        · right
          rcases publish_cases .control .actY (yawDuty p dt w7) (respond 0#16) w10 with ⟨h', e'⟩ | ⟨h', e'⟩
          · exact .inl ⟨h, h', e.trans e'⟩
          · exact .inr ⟨h, h', e.trans e'⟩
    · simp [hh]
  · simp

end Sys2Proof.Machine
end

