-- ==== Sys2Proof/Laws/PerInstr.lean ====
section
/-! SUPPORT. One family of facts, one lemma per operation: the word of an operation lies in its own row of the opcode map,
and in no other (R89). -/

namespace Sys2Proof.Laws.EncodesIntoItsRow

/-- Of all the rows, exactly the one of `i`'s mnemonic selects the word of `i` (R89). -/
def Statement (i : Instr) : Prop :=
  ∀ row ∈ opcodeMap, row.selectedBy (encode i) = decide (row.mnemonic = i.mnemonic)

theorem rfWrite (i : Ring) (v : RawSample) : Statement (.rfWrite i v) := by
  have hv : (v).setWidth 16 &&& 0xF000#16 = 0#16 := setWidth_and_high _ _ (by decide)
  unfold Statement encode opcodeMap
  simp only [List.forall_mem_cons, OpcodeRow.selectedBy_packFields]
  cases i <;> simp [unitField, funcField, selField, immField, Ring.sel, Instr.mnemonic, hv]

theorem rfRead (i : Ring) (k : BitVec 4) : Statement (.rfRead i k) := by
  have hv : (k).setWidth 16 &&& 0xFFF0#16 = 0#16 := setWidth_and_high _ _ (by decide)
  unfold Statement encode opcodeMap
  simp only [List.forall_mem_cons, OpcodeRow.selectedBy_packFields]
  cases i <;> simp [unitField, funcField, selField, immField, Ring.sel, Instr.mnemonic, hv]

theorem rfMean (i : Ring) : Statement (.rfMean i) := by unfold Statement; cases i <;> decide

theorem qdEdge (b a : BitVec 1) : Statement (.qdEdge b a) := by
  have hv : (b ++ a).setWidth 16 &&& 0xFFFC#16 = 0#16 := setWidth_and_high _ _ (by decide)
  unfold Statement encode opcodeMap
  simp only [List.forall_mem_cons, OpcodeRow.selectedBy_packFields]
  simp [unitField, funcField, selField, immField, Instr.mnemonic, hv]

theorem qdRef : Statement .qdRef := by unfold Statement; decide

theorem qdYaw : Statement .qdYaw := by unfold Statement; decide

theorem smpRun (r : RawSample) : Statement (.smpRun r) := by
  have hv : (r).setWidth 16 &&& 0xF000#16 = 0#16 := setWidth_and_high _ _ (by decide)
  unfold Statement encode opcodeMap
  simp only [List.forall_mem_cons, OpcodeRow.selectedBy_packFields]
  simp [unitField, funcField, selField, immField, Instr.mnemonic, hv]

theorem ctlRun : Statement .ctlRun := by unfold Statement; decide

theorem hsTakeS : Statement .hsTakeS := by unfold Statement; decide

theorem hsGiveC : Statement .hsGiveC := by unfold Statement; decide

theorem hsTakeC : Statement .hsTakeC := by unfold Statement; decide

theorem hsGiveS : Statement .hsGiveS := by unfold Statement; decide

theorem setTgtH (x : BitVec 4) : Statement (.setTgtH x) := by
  have hv : (x).setWidth 16 &&& 0xFFF0#16 = 0#16 := setWidth_and_high _ _ (by decide)
  unfold Statement encode opcodeMap
  simp only [List.forall_mem_cons, OpcodeRow.selectedBy_packFields]
  simp [unitField, funcField, selField, immField, Instr.mnemonic, hv]

theorem setTgtY (y : BitVec 5) : Statement (.setTgtY y) := by
  have hv : (y).setWidth 16 &&& 0xFFE0#16 = 0#16 := setWidth_and_high _ _ (by decide)
  unfold Statement encode opcodeMap
  simp only [List.forall_mem_cons, OpcodeRow.selectedBy_packFields]
  simp [unitField, funcField, selField, immField, Instr.mnemonic, hv]

end Sys2Proof.Laws.EncodesIntoItsRow
end

