-- ==== Sys2Proof/Machine/Parametric.lean ====
section
/-! DEFINITION. The machine for any record of the open parameters (R5), which the spec says a model takes as arguments:
the operations, the step and the start of a session. `execWith_params` and `stepWith_params` in Laws/Step.lean say that
`exec` and `step` are these at the machine's own record, and `coreWith_params` that `core` is. -/

namespace Sys2Proof.Machine

/-- The operations of R89 with the configuration `p`; only those that use an open parameter differ from `exec`. -/
def execWith (p : Config.Params) (i : Instr) (s : State) : Result :=
  match i with
  | .rfWrite r v => execRfWrite r v s
  | .rfRead r k => execRfRead r k s
  | .rfMean r => execRfMean r s
  | .qdEdge b a => .next (qdEdgeWith p b a s)
  | .qdRef => execQdRef s
  | .qdYaw => .next (qdYawWith p s)
  | .smpRun r => .next (smpRunWith p r s)
  | .ctlRun => .next (ctlRunWith p s)
  | .hsTakeS => execHsTakeS s
  | .hsGiveC => execHsGiveC s
  | .hsTakeC => execHsTakeC s
  | .hsGiveS => execHsGiveS s
  | .setTgtH x => execSetTgtH x s
  | .setTgtY y => execSetTgtY y s

/-- One step with the configuration `p` (R5, R10); a reset event fills the slots with `p`'s `PREFILL` (R20, R116, R280). -/
def stepWith (p : Config.Params) (s : State) : Result := stepBy p (execWith p) s

/-- The whole machine with the configuration `p` (R5). -/
def coreWith (p : Config.Params) : Host.Core where
  State := State
  Fault := Fault
  Refusal := Refusal
  step := stepWith p
  reset := State.resetFor p

end Sys2Proof.Machine
end

