-- ==== Sys2Proof/Laws/Step.lean ====
section
/-! SUPPORT. What a step can do, said once. -/

namespace Sys2Proof.Machine

/-- The state an operation of stimulus `x` is performed in: the stimulus is taken, its word and ports are latched. -/
def presented (x : Stimulus) (rest : List Stimulus) (w : Word) (s : State) : State :=
  latch w (stimulusPorts s x) { s with inputs := rest }

/-- A stimulus's word does not depend on what comes after it. -/
theorem stimulusWord_inputs (s : State) (rest : List Stimulus) (x : Stimulus) :
    stimulusWord { s with inputs := rest } x = stimulusWord s x := by
  cases x <;> simp only [stimulusWord]

/-- Only the reset event presents no word (R280). -/
theorem stimulusWord_none {s : State} {x : Stimulus} (h : stimulusWord s x = none) : x = .reset := by
  cases x <;> simp only [stimulusWord, reduceCtorEq] at h
  rfl

/-- A stimulus's ports do not depend on what comes after it. -/
theorem stimulusPorts_inputs (s : State) (rest : List Stimulus) (x : Stimulus) :
    stimulusPorts { s with inputs := rest } x = stimulusPorts s x := by
  cases x <;> simp only [stimulusPorts]

/-- Performing a word that decodes is the operation (R90). -/
theorem performBy_of_decode_ok {ex : Instr → State → Result} {s : State} {i : Instr} (h : decode s.cmd = .ok i) :
    performBy ex s = ex i s := by
  unfold performBy; rw [h]

/-- Performing a word that does not decode is IllegalCommand (R90, R251). -/
theorem performBy_of_decode_error {ex : Instr → State → Result} {s : State} {e : DecodeError}
    (h : decode s.cmd = .error e) : performBy ex s = .next (turnAway .illegalCmd s) := by
  unfold performBy; rw [h]

/-- A step on a stimulus that presents a word which decodes. -/
theorem step_of_decode_ok {s : State} {x : Stimulus} {rest : List Stimulus} {w : Word} {i : Instr} {t : State}
    (hx : s.inputs = x :: rest) (hw : stimulusWord s x = some w) (hd : decode w = .ok i)
    (he : exec i (presented x rest w s) = .next t) : step s = .next (advanceTask x t) := by
  have hw' : stimulusWord { s with inputs := rest } x = some w := (stimulusWord_inputs s rest x).trans hw
  have hp := stimulusPorts_inputs s rest x
  have hperf : performBy exec (presented x rest w s) = exec i (presented x rest w s) :=
    performBy_of_decode_ok (s := presented x rest w s) (i := i) hd
  unfold step stepBy serveBy
  rw [hx]
  simp only [hw', hp]
  rw [show latch w (stimulusPorts s x) { s with inputs := rest } = presented x rest w s from rfl, hperf, he]

/-- Everything a step that answers a next state can have done: nothing (nothing is presented), the reset event, one
operation, or one refused word. -/
theorem step_cases {s t : State} (h : step s = .next t) :
    (s.inputs = [] ∧ t = s) ∨
    (∃ rest, s.inputs = .reset :: rest ∧ t = resetSession { s with inputs := rest }) ∨
    (∃ x rest w i u, s.inputs = x :: rest ∧ x ≠ .reset ∧ stimulusWord s x = some w ∧ decode w = .ok i ∧
      exec i (presented x rest w s) = .next u ∧ t = advanceTask x u) ∨
    (∃ x rest w e, s.inputs = x :: rest ∧ x ≠ .reset ∧ stimulusWord s x = some w ∧ decode w = .error e ∧
      t = advanceTask x (turnAway .illegalCmd (presented x rest w s))) := by
  unfold step stepBy at h
  split at h
  · rename_i hn; exact .inl ⟨hn, (Host.Outcome.next.inj h).symm⟩
  · rename_i x rest hx
    right
    have hp := stimulusPorts_inputs s rest x
    have hw' := stimulusWord_inputs s rest x
    unfold serveBy at h
    rw [hp, hw'] at h
    split at h
    · rename_i hw
      obtain rfl := stimulusWord_none hw
      exact .inl ⟨rest, hx, (Host.Outcome.next.inj h).symm⟩
    · rename_i w hw
      right
      have hne : x ≠ .reset := by rintro rfl; simp only [stimulusWord, reduceCtorEq] at hw
      rw [show latch w (stimulusPorts s x) { s with inputs := rest } = presented x rest w s from rfl] at h
      cases hd : decode w with
      | ok i =>
        rw [performBy_of_decode_ok (s := presented x rest w s) (i := i) hd] at h
        split at h
        · rename_i u hu
          exact .inl ⟨x, rest, w, i, u, hx, hne, hw, hd, hu, (Host.Outcome.next.inj h).symm⟩
        · cases h
        · cases h
      | error e =>
        rw [performBy_of_decode_error (s := presented x rest w s) (e := e) hd] at h
        exact .inr ⟨x, rest, w, e, hx, hne, hw, hd, (Host.Outcome.next.inj h).symm⟩

/-- Moving a task on in its program changes that task's place only. -/
theorem advanceTask_eq (x : Stimulus) (s : State) :
    advanceTask x s = { s with samplerAt := (advanceTask x s).samplerAt, controlAt := (advanceTask x s).controlAt } := by
  unfold advanceTask
  cases x <;> simp only <;> first | rfl | (split <;> rfl)

/-! ### The machine for any parameters (R5) -/

/-- The machine's operations are the parametric ones at its own record. -/
theorem execWith_params : execWith params = exec := by funext i s; cases i <;> rfl

/-- The machine's step is the parametric one at its own record. -/
theorem stepWith_params : stepWith params = step := by funext s; unfold stepWith step; rw [execWith_params]

/-- The machine's reset state is the parametric one at its own record. -/
theorem resetFor_params : State.resetFor params = State.reset := rfl

/-- The host's machine is the parametric one at its own record. -/
theorem coreWith_params : coreWith params = Sys2Proof.core := by
  unfold coreWith Sys2Proof.core; rw [stepWith_params, resetFor_params]

/-- Whatever the constants and `PREFILL` are, a reset event leaves every register as at the start of the session: the
slots at `PREFILL`, the timer shadow at `RELOAD_VALUE` (R20, R32, R116, R280, R282). -/
theorem stepWith_reset {p : Config.Params} {s t : State} {rest : List Stimulus} (hx : s.inputs = .reset :: rest)
    (h : stepWith p s = .next t) : t = { State.resetFor p with
      cmd := s.cmd, ports := s.ports, status := s.status, resp := s.resp, inputs := rest } := by
  unfold stepWith stepBy at h
  rw [hx] at h
  cases h
  rfl

/-- The timer shadow starts at the record's `RELOAD_VALUE` (R32, R38). -/
@[simp] theorem resetFor_ctlLastTicks (p : Config.Params) : (State.resetFor p).ctlLastTicks = p.const.reloadValue := rfl

end Sys2Proof.Machine
end

