-- ==== Sys2Proof/Laws/Safety.lean ====
section
/-! SUPPORT. What each operation does to the runs, the token and the halt bits, and what a step leaves of the list. -/

namespace Sys2Proof.Machine

@[simp] theorem taskRuns_append (l m : List Event) : taskRuns (l ++ m) = taskRuns l ++ taskRuns m := by
  simp [taskRuns]

/-- One more run keeps the strict ping-pong exactly when it is the other task's (R236). -/
theorem strictPingPong_append {l : List Task} {x : Task} (h : StrictPingPong l)
    (hx : x = if l.length % 2 = 0 then .sampler else .control) : StrictPingPong (l ++ [x]) := by
  intro k hk
  rw [List.getElem_append]
  split
  · exact h k _
  · simp at hk
    have : k = l.length := by omega
    subst this
    simp [hx]

/-- The runs, the token and the two halt bits are the same in both states. -/
def SamePhase (s t : State) : Prop :=
  taskRuns t.trace = taskRuns s.trace ∧ t.hs = s.hs ∧ t.fatalS = s.fatalS ∧ t.fatalC = s.fatalC

/-- An operation that belongs to no task's program leaves the runs, the token and the halt bits alone (R11, R260). -/
theorem exec_samePhase {i : Instr} {s t : State} (hi : isTaskOp i = false) (h : exec i s = .next t) : SamePhase s t := by
  cases i with
  | smpRun r => simp [isTaskOp] at hi
  | ctlRun => simp [isTaskOp] at hi
  | hsTakeS => simp [isTaskOp] at hi
  | hsGiveC => simp [isTaskOp] at hi
  | hsTakeC => simp [isTaskOp] at hi
  | hsGiveS => simp [isTaskOp] at hi
  | rfWrite r v => cases h; simp [SamePhase]
  | rfRead r k => simp only [exec, execRfRead] at h; split at h <;> cases h <;> simp [SamePhase]
  | rfMean r => cases h; simp [SamePhase]
  | qdEdge b a => cases h; simp [SamePhase, qdEdgeWith]
  | qdRef => simp only [exec, execQdRef] at h; split at h <;> cases h <;> simp [SamePhase, taskRuns, Event.taskRun]
  | qdYaw => cases h; simp [SamePhase, qdYawWith]
  | setTgtH x => simp only [exec, execSetTgtH] at h; split at h <;> cases h <;> simp [SamePhase]
  | setTgtY x => simp only [exec, execSetTgtY] at h; split at h <;> cases h <;> simp [SamePhase]

/-- `SMP_RUN` is turned away, or is one Sampler run that completes or halts the Sampler (R160, R164). -/
theorem smpRun_phase {r : RawSample} {s t : State} (h : exec (.smpRun r) s = .next t) :
    (t.status ≠ .ok ∧ (s.fatalS = true ∨ s.hs ≠ .smp) ∧ SamePhase s t) ∨
    (s.fatalS = false ∧ s.hs = .smp ∧ taskRuns t.trace = taskRuns s.trace ++ [.sampler] ∧ t.hs = s.hs ∧
      t.fatalC = s.fatalC ∧ ((t.status = .ok ∧ t.fatalS = false) ∨ (t.status = .fatal ∧ t.fatalS = true))) := by
  rw [← Host.Outcome.next.inj h]
  rcases smpRunWith_cases params r s with ⟨a, e⟩ | ⟨_, a, e⟩ | ⟨a, b, _, e⟩ | ⟨a, b, _, _, e⟩ | ⟨a, b, _, _, e⟩ <;> rw [e]
  · left; simp [a, SamePhase]
  · left; simp [a, SamePhase]
  all_goals right; simp [a, b, taskRuns, Event.taskRun]

/-- `CTL_RUN` is turned away, or is one Control run that completes or halts the Control Loop (R180, R184, R195). -/
theorem ctlRun_phase {s t : State} (h : exec .ctlRun s = .next t) :
    (t.status ≠ .ok ∧ (s.fatalC = true ∨ s.hs ≠ .ctl) ∧ SamePhase s t) ∨
    (s.fatalC = false ∧ s.hs = .ctl ∧ taskRuns t.trace = taskRuns s.trace ++ [.control] ∧ t.hs = s.hs ∧
      t.fatalS = s.fatalS ∧ ((t.status = .ok ∧ t.fatalC = false) ∨ (t.status = .fatal ∧ t.fatalC = true))) := by
  rw [← Host.Outcome.next.inj h]
  rcases ctlRunWith_cases params s with ⟨a, e⟩ | ⟨_, a, e⟩ | ⟨a, b, _, e⟩ | ⟨a, b, _, _, e⟩ | ⟨a, b, _, _, _, e⟩ | ⟨a, b, _, _, _, e⟩ <;>
    rw [e]
  · left; simp [a, SamePhase]
  · left; simp [a, SamePhase]
  · right; simp [a, b, taskRuns, Event.taskRun]
  all_goals
    right
    rw [noteTicks_eq]
    by_cases hc : s.ports.ticks.toNat < params.const.reloadThreshold <;> simp [a, b, hc, taskRuns, Event.taskRun]

/-- No operation reads or writes the list of stimuli or the tasks' places. -/
theorem exec_agents {i : Instr} {s t : State} (h : exec i s = .next t) :
    t.inputs = s.inputs ∧ t.samplerAt = s.samplerAt ∧ t.controlAt = s.controlAt ∧ t.cmd = s.cmd ∧ t.ports = s.ports := by
  cases i with
  | smpRun r =>
    rw [← Host.Outcome.next.inj h]
    rcases smpRunWith_cases params r s with ⟨_, e⟩ | ⟨_, _, e⟩ | ⟨_, _, _, e⟩ | ⟨_, _, _, _, e⟩ | ⟨_, _, _, _, e⟩ <;>
      rw [e] <;> simp
  | ctlRun =>
    rw [← Host.Outcome.next.inj h]
    rcases ctlRunWith_cases params s with ⟨_, e⟩ | ⟨_, _, e⟩ | ⟨_, _, _, e⟩ | ⟨_, _, _, _, e⟩ | ⟨_, _, _, _, _, e⟩ |
      ⟨_, _, _, _, _, e⟩ <;> rw [e] <;> simp
  | hsTakeS => rw [← Host.Outcome.next.inj h]; rcases takeGate_cases .sampler .wfs .smp s with ⟨_, e⟩ | ⟨_, _, e⟩ | ⟨_, _, e⟩ <;> rw [e] <;> simp
  | hsGiveC => rw [← Host.Outcome.next.inj h]; rcases giveGate_cases .sampler .smp .wfc s with ⟨_, e⟩ | ⟨_, _, e⟩ | ⟨_, _, e⟩ <;> rw [e] <;> simp
  | hsTakeC => rw [← Host.Outcome.next.inj h]; rcases takeGate_cases .control .wfc .ctl s with ⟨_, e⟩ | ⟨_, _, e⟩ | ⟨_, _, e⟩ <;> rw [e] <;> simp
  | hsGiveS => rw [← Host.Outcome.next.inj h]; rcases giveGate_cases .control .ctl .wfs s with ⟨_, e⟩ | ⟨_, _, e⟩ | ⟨_, _, e⟩ <;> rw [e] <;> simp
  | rfWrite r v => cases h; simp
  | rfRead r k => simp only [exec, execRfRead] at h; split at h <;> cases h <;> simp
  | rfMean r => cases h; simp
  | qdEdge b a => cases h; simp [qdEdgeWith]
  | qdRef => simp only [exec, execQdRef] at h; split at h <;> cases h <;> simp
  | qdYaw => cases h; simp [qdYawWith]
  | setTgtH x => simp only [exec, execSetTgtH] at h; split at h <;> cases h <;> simp
  | setTgtY x => simp only [exec, execSetTgtY] at h; split at h <;> cases h <;> simp

/-- A reference edge leaves the Sampler where it is (R135, R260). -/
theorem feed_refPin_samplerAt (s : State) : (feed .refPin s).samplerAt = s.samplerAt := by
  have hd : decode (encode .qdRef) = .ok .qdRef := by decide
  have he : exec .qdRef (presented .refPin [] (encode .qdRef) { s with inputs := [.refPin] }) = _ := rfl
  have h := step_of_decode_ok (s := { s with inputs := [.refPin] }) (x := .refPin) rfl rfl hd he
  have ha := (exec_agents he).2.1
  unfold feed
  rw [h]
  exact ha

/-- A schedule of reference edges alone leaves the Sampler where it is, for ever. -/
theorem refPin_schedule_keeps_sampler (s : State) (n : Nat) :
    (runSchedule (fun _ => .refPin) s n).samplerAt = s.samplerAt := by
  induction n with
  | zero => rfl
  | succ n ih => exact (feed_refPin_samplerAt _).trans ih

/-- Without a reading the Sampler's `SMP_RUN` is not enabled (R166, R264). -/
theorem taskEnabled_run_without_adc {s : State} (h : s.samplerAt = .run) : taskEnabled .sampler false s = false := by
  unfold taskEnabled; rw [h]; simp

end Sys2Proof.Machine
end

