-- ==== Sys2Proof/Laws/Values.lean ====
section
/-! SUPPORT. The ranges of the values operations compute, and the window of a ring after a write. -/

namespace Sys2Proof.Machine

/-! ### Ring filter -/

/-- The sample type holds exactly 0..`RAW_MAX` (R4). -/
theorem rawSample_le (v : RawSample) : v.toNat ≤ Config.rawMax := by
  have := v.isLt; exact Nat.le_of_lt_succ this

/-- Every value 0..`RAW_MAX` is a sample (R4). -/
theorem rawSample_of_le {n : Nat} (h : n ≤ Config.rawMax) : ∃ v : RawSample, v.toNat = n := by
  replace h : n ≤ 4095 := h
  exact ⟨BitVec.ofNat 12 n, by rw [BitVec.toNat_ofNat]; omega⟩

/-- The rings have the capacities of the record, whichever record of the machine it is (R4, R110). -/
theorem capacity_eq (p : Config.Params) :
    Ring.height.capacity = p.const.sizes.n0 ∧ Ring.pot.capacity = p.const.sizes.n1 := by
  rw [p.sizesFit]; exact ⟨rfl, rfl⟩

theorem samples_sum_le (l : List RawSample) : (l.map BitVec.toNat).sum ≤ 4095 * l.length := by
  induction l with
  | nil => simp
  | cons a l ih => simp; have := a.isLt; omega

/-- The sum over a ring of `n` slots (R114). -/
theorem ringSum_le {n : Nat} (r : RingBuf n) : ringSum r ≤ 4095 * n := by
  have := samples_sum_le r.slot.toList
  simpa [ringSum] using this

/-- A mean is a sample value (R115). -/
theorem ringMean_le {n : Nat} (r : RingBuf n) : ringMean r ≤ 4095 := by
  have h := ringSum_le r
  have hn : 0 < n := r.wr.pos
  unfold ringMean
  have : (2 * ringSum r + n) / (2 * n) < 4096 := Nat.div_lt_of_lt_mul (by nlinarith)
  omega

/-- A height is a sample value (R162). -/
theorem heightAbove_le (g m : Nat) (h : g ≤ 4095) : heightAbove g m ≤ 4095 := by
  unfold heightAbove; split <;> omega

@[simp] theorem ringWindow_length {n : Nat} (r : RingBuf n) : (ringWindow r).length = n := by simp [ringWindow]

/-! ### Quadrature decoder -/

/-- `Norm` with the source's constants (R133). -/
theorem norm_eq {p : Config.Params} (h : p.const = Config.sourceConstants) (c : Int) :
    norm p c = if c > 224 then c - 448 else if c < -223 then c + 448 else c := by
  unfold norm; rw [h]; rfl

/-- The machine's record has the printed deltas (R4, R82). -/
theorem delta_eq {p : Config.Params} (h : p.const = Config.sourceConstants) (d : Config.Direction) :
    p.const.delta d = d.delta := by rw [h]; rfl

/-- A direction is one tick at most (R82). -/
theorem delta_range (d : Config.Direction) : -1 ≤ d.delta ∧ d.delta ≤ 1 := by cases d <;> decide

/-- Whatever nine-bit counter an edge finds, it leaves a legal one, held exactly (R132, R134). -/
theorem norm_step {p : Config.Params} (h : p.const = Config.sourceConstants) (c : BitVec 9) (d : Config.Direction) :
    (BitVec.ofInt 9 (norm p (c.toInt + d.delta))).toInt = norm p (c.toInt + d.delta) ∧
      -223 ≤ norm p (c.toInt + d.delta) ∧ norm p (c.toInt + d.delta) ≤ 224 := by
  have h1 := c.toInt_lt
  have h2 := c.le_toInt
  have ⟨h3, h4⟩ := delta_range d
  norm_num at h1 h2
  have hr : -223 ≤ norm p (c.toInt + d.delta) ∧ norm p (c.toInt + d.delta) ≤ 224 := by
    rw [norm_eq h]; split
    · omega
    · split <;> omega
  refine ⟨?_, hr⟩
  rw [BitVec.toInt_ofInt]
  apply Int.bmod_eq_of_le <;> norm_num <;> omega

/-- `DEG_ROUND` maps an integer to itself (R137). -/
theorem degRound_intCast (p : Config.Params) (m : Int) : degRound p (m : Rat) = m := by
  unfold degRound; simp

/-- `DEG_ROUND` maps a rational to one of its neighbours (R137). -/
theorem degRound_near (p : Config.Params) (q : Rat) : (degRound p q : Rat) - q < 1 ∧ q - (degRound p q : Rat) < 1 := by
  unfold degRound
  have h1 := Rat.floor_le q
  have h2 : q < (q.floor : Rat) + 1 := by exact_mod_cast Rat.lt_floor_add_one q
  split
  · rename_i h; have := (Rat.den_eq_one_iff q).1 h; rw [this]; simp
  · split
    · push_cast
      have h3 : (q.floor : Rat) ≠ q := by
        intro h; rename_i hd _; apply hd; rw [← h]; simp
      have := lt_of_le_of_ne h1 h3
      constructor <;> linarith
    · constructor <;> linarith

/-- The exact degree with the source's constants (R136). -/
theorem degExact_eq {p : Config.Params} (h : p.const = Config.sourceConstants) (c : Int) :
    degExact p c = (c : Rat) * 45 / 56 := by
  unfold degExact; rw [h]; unfold Config.sourceConstants; push_cast; ring

/-- The degree is within one of the exact ratio (R136, R137). -/
theorem yawDeg_near {p : Config.Params} (h : p.const = Config.sourceConstants) (c : Int) :
    (yawDeg p c : Rat) - (c : Rat) * 45 / 56 < 1 ∧ (c : Rat) * 45 / 56 - (yawDeg p c : Rat) < 1 := by
  rw [← degExact_eq h]; exact degRound_near p _

/-- The degree of any nine-bit counter fits nine bits (R138). -/
theorem yawDeg_range {p : Config.Params} (h : p.const = Config.sourceConstants) (c : BitVec 9) :
    -207 ≤ yawDeg p c.toInt ∧ yawDeg p c.toInt ≤ 206 := by
  have h1 := c.toInt_lt
  have h2 := c.le_toInt
  norm_num at h1 h2
  have ⟨h3, h4⟩ := yawDeg_near h c.toInt
  have e1 : (-256 : Rat) ≤ c.toInt := by exact_mod_cast h2
  have e2 : (c.toInt : Rat) < 256 := by exact_mod_cast h1
  constructor
  · have : (-208 : Rat) < yawDeg p c.toInt := by linarith
    have : (-208 : Int) < yawDeg p c.toInt := by exact_mod_cast this
    omega
  · have : (yawDeg p c.toInt : Rat) < 207 := by linarith
    have : yawDeg p c.toInt < (207 : Int) := by exact_mod_cast this
    omega

/-! ### Duty -/

/-- `DUTY_ROUND` maps an integer to itself (D17). -/
theorem dutyRound_intCast (p : Config.Params) (m : Int) : dutyRound p (m : Rat) = m := by
  unfold dutyRound; simp

end Sys2Proof.Machine
end

