-- ==== Sys2Proof/Machine/Assembler.lean ====
section
/-! DEFINITION. The assembler text (R94) and its pseudo-operations (R95): a line of text as the command words, with their
port values, that it stands for. The machine itself never reads text. -/

namespace Sys2Proof.Machine

/-- Why a line is no operation. -/
inductive AsmError where
  /-- The first word is no mnemonic of R89 or R95. -/
  | unknownMnemonic
  /-- Wrong number of operands, not a number, or too wide for its field (R88). -/
  | badOperands
  /-- The square brackets are not closed, or a port is not one of R39, or its value is too wide. -/
  | badPorts
  /-- `CTL_RUN` without `TICKS`, "which must be given" (R94). -/
  | ticksMissing
deriving DecidableEq, Repr

/-- The parts of a text between occurrences of `c`. -/
def splitText (c : Char) : List Char → List (List Char)
  | [] => [[]]
  | x :: xs =>
    if x = c then [] :: splitText c xs
    else match splitText c xs with
      | [] => [[x]]
      | w :: ws => (x :: w) :: ws

/-- The text without spaces at its ends. -/
def trimText (cs : List Char) : List Char :=
  ((cs.dropWhile Char.isWhitespace).reverse.dropWhile Char.isWhitespace).reverse

/-- The value of a digit of the given base. -/
def digitValue (base : Nat) (c : Char) : Option Nat :=
  let v := if '0' ≤ c ∧ c ≤ '9' then c.toNat - 48
    else if 'a' ≤ c ∧ c ≤ 'f' then c.toNat - 87
    else if 'A' ≤ c ∧ c ≤ 'F' then c.toNat - 55
    else base
  if v < base then some v else none

/-- The value of a nonempty list of digits. -/
def digitsValue (base : Nat) : List Char → Option Nat
  | [] => none
  | c :: cs => (c :: cs).foldlM (fun acc d => (digitValue base d).map (acc * base + ·)) 0

/-- A number, "in decimal (or `0x` hex)" (R94). -/
def numberValue : List Char → Option Nat
  | '0' :: 'x' :: cs => digitsValue 16 cs
  | cs => digitsValue 10 cs

/-- An operand of `n` bits (R88). -/
def fieldValue (n : Nat) (cs : List Char) : Option (BitVec n) :=
  match numberValue cs with
  | some v => if v < 2 ^ n then some (BitVec.ofNat n v) else none
  | none => none

/-- An instance operand: 0 or 1 (R88). -/
def ringValue (cs : List Char) : Option Ring :=
  match numberValue cs with
  | some 0 => some .height
  | some 1 => some .pot
  | _ => none

/-- The operands of `QD_EDGE`: two bits `b, a`, or one binary pair `0bBA` (R94). -/
def edgeValue : List (List Char) → Option (BitVec 1 × BitVec 1)
  | [['0', 'b', b, a]] =>
    match digitValue 2 b, digitValue 2 a with
    | some b, some a => some (BitVec.ofNat 1 b, BitVec.ofNat 1 a)
    | _, _ => none
  | [b, a] =>
    match fieldValue 1 b, fieldValue 1 a with
    | some b, some a => some (b, a)
    | _, _ => none
  | _ => none

/-- The next pair `(b, a)` of the clockwise cycle `00 -> 01 -> 11 -> 10 -> 00` (R83). -/
def clockwisePair (p : BitVec 1 × BitVec 1) : BitVec 1 × BitVec 1 := (p.2, ~~~p.1)

/-- The next pair of the anticlockwise cycle, the reverse (R83). -/
def anticlockwisePair (p : BitVec 1 × BitVec 1) : BitVec 1 × BitVec 1 := (~~~p.2, p.1)

/-- Four edges once round a cycle, ending at the pair they start from (R95). -/
def oncePairCycle (next : BitVec 1 × BitVec 1 → BitVec 1 × BitVec 1) (p : BitVec 1 × BitVec 1) : List Instr :=
  let p1 := next p
  let p2 := next p1
  let p3 := next p2
  let p4 := next p3
  [p1, p2, p3, p4].map fun q => .qdEdge q.1 q.2

/-- One Sampler turn (R95). -/
def samplerCycle (r : RawSample) : List Instr := [.hsTakeS, .smpRun r, .hsGiveC]

/-- One Control Loop turn (R95). -/
def controlCycle : List Instr := [.hsTakeC, .ctlRun, .hsGiveS]

/-- `readInOrder()` as separate reads (R67, R95). -/
def readAll (i : Ring) : List Instr := (List.range i.capacity).map fun k => .rfRead i (BitVec.ofNat 4 k)

/-- The operations a mnemonic with its operands stands for (R89, R95). `pair` is the phase pair `(B, A)` now stored,
which only `QD_CW` and `QD_ACW` use. -/
def expandLine (pair : BitVec 1 × BitVec 1) (mnemonic : String) (operands : List (List Char)) :
    Except AsmError (List Instr) :=
  let orBad (o : Option (List Instr)) : Except AsmError (List Instr) :=
    match o with
    | some l => .ok l
    | none => .error .badOperands
  let noOperand (l : List Instr) : Except AsmError (List Instr) := if operands = [] then .ok l else .error .badOperands
  match mnemonic with
  | "RF_WRITE" => orBad (match operands with
    | [i, v] => (ringValue i).bind fun i => (fieldValue 12 v).map fun v => [.rfWrite i v]
    | _ => none)
  | "RF_READ" => orBad (match operands with
    | [i, k] => (ringValue i).bind fun i => (fieldValue 4 k).map fun k => [.rfRead i k]
    | _ => none)
  | "RF_MEAN" => orBad (match operands with
    | [i] => (ringValue i).map fun i => [.rfMean i]
    | _ => none)
  | "QD_EDGE" => orBad ((edgeValue operands).map fun p => [.qdEdge p.1 p.2])
  | "QD_REF" => noOperand [.qdRef]
  | "QD_YAW" => noOperand [.qdYaw]
  | "SMP_RUN" => orBad (match operands with
    | [r] => (fieldValue 12 r).map fun r => [.smpRun r]
    | _ => none)
  | "CTL_RUN" => noOperand [.ctlRun]
  | "HS_TAKE_S" => noOperand [.hsTakeS]
  | "HS_GIVE_C" => noOperand [.hsGiveC]
  | "HS_TAKE_C" => noOperand [.hsTakeC]
  | "HS_GIVE_S" => noOperand [.hsGiveS]
  | "SET_TGT_H" => orBad (match operands with
    | [x] => (fieldValue 4 x).map fun x => [.setTgtH x]
    | _ => none)
  | "SET_TGT_Y" => orBad (match operands with
    | [y] => (fieldValue 5 y).map fun y => [.setTgtY y]
    | _ => none)
  | "RF_READALL" => orBad (match operands with
    | [i] => (ringValue i).map readAll
    | _ => none)
  | "SMP_CYCLE" => orBad (match operands with
    | [r] => (fieldValue 12 r).map samplerCycle
    | _ => none)
  | "CTL_CYCLE" => noOperand controlCycle
  | "CYCLE" => orBad (match operands with
    | [r] => (fieldValue 12 r).map fun r => samplerCycle r ++ controlCycle
    | _ => none)
  | "QD_CW" => noOperand (oncePairCycle clockwisePair pair)
  | "QD_ACW" => noOperand (oncePairCycle anticlockwisePair pair)
  | _ => .error .unknownMnemonic

/-- One `NAME=value` of the bracketed port values (R94). -/
def setPort (q : Ports) (name : String) (value : List Char) : Option Ports :=
  let flag : Option Bool := (fieldValue 1 value).map fun v => decide (v = 1#1)
  match name with
  | "TICKS" => (fieldValue 32 value).map fun v => { q with ticks := v }
  | "FULL_DH" => flag.map fun f => { q with fullDH := f }
  | "FULL_DY" => flag.map fun f => { q with fullDY := f }
  | "FULL_AH" => flag.map fun f => { q with fullAH := f }
  | "FULL_AY" => flag.map fun f => { q with fullAY := f }
  | _ => none

/-- The bracketed port values; "a port left out is 0" (R94). -/
def portValues (items : List (List Char)) : Option Ports :=
  items.foldlM (fun q item =>
    match splitText '=' item with
    | [name, value] => setPort q (String.ofList (trimText name)) (trimText value)
    | _ => none)
    { ticks := 0#32, fullDH := false, fullDY := false, fullAH := false, fullAY := false }

/-- The items of a list separated by commas; an empty text has none. -/
def itemsOf (cs : List Char) : List (List Char) :=
  if trimText cs = [] then [] else (splitText ',' cs).map trimText

/-- The text of a line before its brackets and, if it has any, the text in them. -/
def splitBrackets (cs : List Char) : Option (List Char × Option (List Char)) :=
  match splitText '[' cs with
  | [body] => some (body, none)
  | [body, inside] =>
    match splitText ']' inside with
    | [ports, after] => if trimText after = [] then some (body, some ports) else none
    | _ => none
  | _ => none

/-- The bracketed values name `TICKS`. -/
def givesTicks (items : List (List Char)) : Bool :=
  items.any fun item => decide (String.ofList (trimText (item.takeWhile (· ≠ '='))) = "TICKS")

/-- One line as the operations it stands for and the port values they are performed with (R94, R95); a line with only a
comment has none. `TICKS` must be given exactly where an operation samples it, which is `CTL_RUN`: DEDUCED, log 21. -/
def parseLine (pair : BitVec 1 × BitVec 1) (line : String) : Except AsmError (List Instr × Ports) :=
  match splitBrackets (trimText (line.toList.takeWhile (· ≠ '#'))) with
  | none => .error .badPorts
  | some (body, brackets) =>
    let items := itemsOf (brackets.getD [])
    match portValues items with
    | none => .error .badPorts
    | some ports =>
      let text := trimText body
      if text = [] then .ok ([], ports)
      else
        let word := text.takeWhile fun c => !c.isWhitespace
        match expandLine pair (String.ofList word) (itemsOf (text.drop word.length)) with
        | .error e => .error e
        | .ok l => if .ctlRun ∈ l ∧ givesTicks items = false then .error .ticksMissing else .ok (l, ports)

/-- The phase pair after performing the operations: the last edge's (R132). -/
def pairAfter (pair : BitVec 1 × BitVec 1) (l : List Instr) : BitVec 1 × BitVec 1 :=
  l.foldl (fun p i => match i with
    | .qdEdge b a => (b, a)
    | _ => p) pair

/-- A text of lines as the commands `ENV` presents, from the phase pair now stored. -/
def assemble : BitVec 1 × BitVec 1 → List String → Except AsmError (List Stimulus)
  | _, [] => .ok []
  | pair, line :: lines =>
    match parseLine pair line with
    | .error e => .error e
    | .ok (l, ports) =>
      match assemble (pairAfter pair l) lines with
      | .error e => .error e
      | .ok rest => .ok (l.map (fun i => .command (encode i) ports) ++ rest)

end Sys2Proof.Machine
end

