-- ==== Sys2Proof/Tests/Slice0.lean ====
section
/-! SUPPORT. The model's own tests: expected values are the vectors and programs of 95 and the encodings of 30. Then, for
every statement with hypotheses, a state that meets them. -/

namespace Sys2Proof.Machine.Tests

/-! ### Well-formedness: each check refuses an ill-formed operation (R91) -/

theorem test_wf_rf_read_height : (Instr.rfRead .height 5#4).wellFormed = false := by decide
theorem test_wf_rf_read_pot : (Instr.rfRead .pot 10#4).wellFormed = false := by decide
theorem test_wf_set_tgt_h : (Instr.setTgtH 11#4).wellFormed = false := by decide
theorem test_wf_set_tgt_y : (Instr.setTgtY 24#5).wellFormed = false := by decide
theorem test_wf_limits : (Instr.rfRead .height 4#4).wellFormed = true ∧ (Instr.rfRead .pot 9#4).wellFormed = true ∧
    (Instr.setTgtH 10#4).wellFormed = true ∧ (Instr.setTgtY 23#5).wellFormed = true := by decide

/-! ### Decoding: words written out from R86 to R89, as UNIT FUNC SEL IMM -/

theorem test_decode_rf_write : decode 0b0001_0000_00000000_0000011111010000#32 = .ok (.rfWrite .height 2000#12) := by decide
theorem test_decode_rf_write_pot : decode 0b0001_0000_00000001_0000111111111111#32 = .ok (.rfWrite .pot 4095#12) := by decide
theorem test_decode_rf_read : decode 0b0001_0001_00000001_0000000000001001#32 = .ok (.rfRead .pot 9#4) := by decide
theorem test_decode_rf_mean : decode 0b0001_0010_00000001_0000000000000000#32 = .ok (.rfMean .pot) := by decide
theorem test_decode_qd_edge : decode 0b0010_0000_00000000_0000000000000010#32 = .ok (.qdEdge 1#1 0#1) := by decide
theorem test_decode_qd_ref : decode 0b0010_0001_00000000_0000000000000000#32 = .ok .qdRef := by decide
theorem test_decode_qd_yaw : decode 0b0010_0010_00000000_0000000000000000#32 = .ok .qdYaw := by decide
theorem test_decode_smp_run : decode 0b0011_0000_00000000_0000111111111111#32 = .ok (.smpRun 4095#12) := by decide
theorem test_decode_ctl_run : decode 0b0100_0000_00000000_0000000000000000#32 = .ok .ctlRun := by decide
theorem test_decode_hs_take_s : decode 0b0101_0000_00000000_0000000000000000#32 = .ok .hsTakeS := by decide
theorem test_decode_hs_give_c : decode 0b0101_0001_00000000_0000000000000000#32 = .ok .hsGiveC := by decide
theorem test_decode_hs_take_c : decode 0b0101_0010_00000000_0000000000000000#32 = .ok .hsTakeC := by decide
theorem test_decode_hs_give_s : decode 0b0101_0011_00000000_0000000000000000#32 = .ok .hsGiveS := by decide
theorem test_decode_set_tgt_h : decode 0b0110_0000_00000000_0000000000001010#32 = .ok (.setTgtH 10#4) := by decide
theorem test_decode_set_tgt_y : decode 0b0110_0001_00000000_0000000000010111#32 = .ok (.setTgtY 23#5) := by decide

/-- V111 and V119: no such unit. -/
theorem test_decode_unknown_unit : decode 0x00000000#32 = .error .unknownUnit ∧ decode 0x70000000#32 = .error .unknownUnit ∧
    decode 0xFFFFFFFF#32 = .error .unknownUnit := by decide
/-- V112 and V120: no such function of a unit. -/
theorem test_decode_unknown_func : decode 0x13000000#32 = .error .unknownFunc ∧ decode 0x54000000#32 = .error .unknownFunc := by
  decide
/-- V113 to V118: a bit that must be zero. -/
theorem test_decode_reserved_bits : decode 0x10020000#32 = .error .reservedBits ∧ decode 0x10001000#32 = .error .reservedBits ∧
    decode 0x20000004#32 = .error .reservedBits ∧ decode 0x40000001#32 = .error .reservedBits ∧
    decode 0x60000010#32 = .error .reservedBits ∧ decode 0x61000020#32 = .error .reservedBits := by decide

/-! ### One step each: vectors of 95 -/

/-- The state after an outcome. -/
def after : Result → State
  | .next t => t
  | .fault _ => State.reset
  | .refused _ => State.reset

/-- Reset, but for the handoff state. -/
def inPhase (h : Handoff) : State := { State.reset with hs := h }

/-- Port values with every mailbox free. -/
def freePorts (ticks : BitVec 32) : Ports := { ticks := ticks, fullDH := false, fullDY := false, fullAH := false, fullAY := false }

/-- V2. -/
theorem test_rf_write_first : (after (exec (.rfWrite .height 4095#12) State.reset)).rf0 =
    { slot := #v[4095#12, 0#12, 0#12, 0#12, 0#12], wr := 1 } := by decide
/-- V4's last write: the index wraps to 0. -/
theorem test_rf_write_wraps : (after (exec (.rfWrite .height 50#12)
      { State.reset with rf0 := { slot := #v[10#12, 20#12, 30#12, 40#12, 0#12], wr := 4 } })).rf0 =
    { slot := #v[10#12, 20#12, 30#12, 40#12, 50#12], wr := 0 } := by decide
/-- V5: the oldest element after the wrap. -/
theorem test_rf_read_oldest : (after (exec (.rfRead .height 0#4)
      { State.reset with rf0 := { slot := #v[60#12, 20#12, 30#12, 40#12, 50#12], wr := 1 } })).resp = 20#16 := by decide
/-- V14. -/
theorem test_rf_read_illegal : (after (exec (.rfRead .height 5#4) State.reset)).status = .illegalOperand ∧
    (after (exec (.rfRead .pot 5#4) State.reset)).status = .ok := by decide
/-- V9: 10.5 rounds up. -/
theorem test_rf_mean_tie : (after (exec (.rfMean .pot) { State.reset with
      rf1 := { slot := #v[105#12, 0#12, 0#12, 0#12, 0#12, 0#12, 0#12, 0#12, 0#12, 0#12], wr := 1 } })).resp = 11#16 := by decide
/-- V6: 20.6 rounds up. -/
theorem test_rf_mean_height : (after (exec (.rfMean .height)
      { State.reset with rf0 := { slot := #v[103#12, 0#12, 0#12, 0#12, 0#12], wr := 1 } })).resp = 21#16 := by decide
/-- V22: the second delta past 224. -/
theorem test_qd_edge_wraps : (qdEdgeWith Config.Params.default 1#1 1#1
      { State.reset with qdCnt := BitVec.ofInt 9 224, qdPb := 1#1 }).qdCnt.toInt = -223 := by decide
/-- V20, index 1: a clockwise edge counts down and stores the pair. -/
theorem test_qd_edge_clockwise : let t := qdEdgeWith Config.Params.default 0#1 1#1 State.reset
    t.qdCnt.toInt = -1 ∧ t.qdPb = 0#1 ∧ t.qdPa = 1#1 := by decide
/-- V31. -/
theorem test_qd_ref_once : (after (exec .qdRef (after (exec .qdRef State.reset)))).trace = [.refSeen] := by decide
/-- V32. -/
theorem test_qd_ref_keeps_count : (after (exec .qdRef { State.reset with qdCnt := 100#9 })).qdCnt = 100#9 := by decide
/-- V33. -/
theorem test_qd_yaw_negative : (qdYawWith Config.Params.default { State.reset with qdCnt := BitVec.ofInt 9 (-223) }).resp =
    0xFF4D#16 := by decide +kernel
/-- V33. -/
theorem test_qd_yaw_exact : (qdYawWith Config.Params.default { State.reset with qdCnt := 56#9 }).resp = 0x002D#16 := by
  decide +kernel
/-- V42: height above the ground captured before. -/
theorem test_smp_run_height : let t := smpRunWith Config.Params.default 1000#12 { inPhase .smp with
      smpGround := 2000#12, smpCalDone := true, rf0 := { slot := #v[2000#12, 2000#12, 2000#12, 2000#12, 2000#12], wr := 1 } }
    t.chH = 200#12 ∧ t.smpGround = 2000#12 ∧ t.trace = [.samplerRun, .pub .dispH 200, .pub .dispY 0] := by decide +kernel
/-- V46 from reset: the ground is captured, the second mailbox is full. -/
theorem test_smp_run_full : let t := smpRunWith Config.Params.default 2000#12 { inPhase .smp with
      ports := { freePorts 0#32 with fullDY := true } }
    t.trace = [.samplerRun, .pub .dispH 0, .fatal .sampler .mailboxOverflow (some .dispY)] ∧ t.fatalCauseS = 2#4 ∧
    t.smpGround = 400#12 ∧ t.hs = .smp := by decide +kernel
/-- P3, cycle 2. -/
theorem test_ctl_run_cycle : let t := ctlRunWith Config.Params.default { inPhase .ctl with
      tgtH := 3, tgtY := 11, chH := 200#12, chY := 3#9, ctlLastTicks := 999999200#32, ports := freePorts 999998400#32 }
    t.pidH = ⟨1, 100⟩ ∧ t.pidY = ⟨3 / 100, 3⟩ ∧ t.ctlLastTicks = 999998400#32 ∧
    t.trace = [.controlRun, .pub .actH 60, .pub .actY 43] := by decide +kernel
/-- P5, cycle 2: parked, deadband, long way round the seam, ceiling. -/
theorem test_ctl_run_parked : let t := ctlRunWith Config.Params.default { inPhase .ctl with
      pidH := ⟨500, 500⟩, pidY := ⟨165, 165⟩, ctlLastTicks := 999920000#32, ports := freePorts 999840000#32 }
    t.pidH = ⟨0, 0⟩ ∧ t.pidY = ⟨330, 165⟩ ∧ t.trace = [.controlRun, .pub .actH 0, .pub .actY 85] := by decide +kernel
/-- V80 and V81. -/
theorem test_hs_take_s : (after (exec .hsTakeS (inPhase .wfs))).hs = .smp ∧
    (after (exec .hsTakeS (inPhase .wfc))).status = .blocked := by decide
/-- V82 and V83. -/
theorem test_hs_give_c : (after (exec .hsGiveC (inPhase .smp))).hs = .wfc ∧
    (after (exec .hsGiveC (inPhase .ctl))).status = .protocol := by decide
/-- V84 and V85. -/
theorem test_hs_take_c : (after (exec .hsTakeC (inPhase .wfc))).hs = .ctl ∧
    (after (exec .hsTakeC (inPhase .smp))).status = .blocked := by decide
/-- V86 and V87. -/
theorem test_hs_give_s : (after (exec .hsGiveS (inPhase .ctl))).hs = .wfs ∧
    (after (exec .hsGiveS (inPhase .wfc))).status = .protocol := by decide
/-- V109 and V110. -/
theorem test_set_tgt_h : (after (exec (.setTgtH 10#4) State.reset)).tgtH = 10 ∧
    (after (exec (.setTgtH 11#4) State.reset)).status = .illegalOperand := by decide
/-- V107 and V108. -/
theorem test_set_tgt_y : (after (exec (.setTgtY 23#5) State.reset)).tgtY = 23 ∧
    (after (exec (.setTgtY 24#5) State.reset)).tgtY = 0 := by decide

/-- V16, after a reset event of a session with `PREFILL` 4095 (R116, R282). -/
theorem test_reset_event_keeps_prefill : let p := { Config.Params.default with prefill := 4095#12 }
    let t := after (execWith p (.rfWrite .height 0#12) (after (stepWith p { inPhase .ctl with inputs := [.reset] })))
    t.rf0.slot = #v[0#12, 4095#12, 4095#12, 4095#12, 4095#12] ∧
    (after (execWith p (.rfMean .height) t)).resp = 3276#16 := by decide

/-- R32, R38: the timer shadow starts, and starts again, at the record's `RELOAD_VALUE`. -/
theorem test_reset_event_uses_reload_value :
    let p := { Config.Params.default with const.reloadValue := 7#32, sizesFit := rfl }
    (State.resetFor p).ctlLastTicks = 7#32 ∧
    (after (stepWith p { inPhase .ctl with inputs := [.reset] })).ctlLastTicks = 7#32 := by decide

/-- A word placed from outside is what the next step performs (R86). -/
theorem test_with_fetch_word : (after (step (State.reset.withFetchWord 32 0x6000000A))).tgtH = 10 ∧
    (after (step (State.reset.withFetchWord 32 0x13000000))).status = .illegalCmd ∧
    decodeTableWord 32 0x6000000A = some (.setTgtH 10#4) := by decide

/-! ### Assembler text: the examples of R94 and R95 -/

/-- The words of a text, from the pair 00. -/
def wordsOf (text : List String) : Option (List Word) :=
  match assemble (0#1, 0#1) text with
  | .ok l => some (l.filterMap fun x => match x with
    | .command w _ => some w
    | _ => none)
  | .error _ => none

theorem test_assemble_examples :
    wordsOf ["RF_WRITE 0, 2000", "RF_READ 1, 9  # comment", "QD_EDGE 0b01", "SMP_RUN 4095", "SET_TGT_Y 0x17"] =
      some [0x100007D0#32, 0x11010009#32, 0x20000001#32, 0x30000FFF#32, 0x61000017#32] ∧
    parseLine (0#1, 0#1) "CTL_RUN [TICKS=999999200, FULL_AH=0, FULL_AY=0]" = .ok ([.ctlRun], freePorts 999999200#32) ∧
    parseLine (0#1, 0#1) "CTL_RUN" = .error .ticksMissing := by decide
theorem test_assemble_pseudo :
    wordsOf ["QD_CW", "QD_ACW"] = some [0x20000001#32, 0x20000003#32, 0x20000002#32, 0x20000000#32,
      0x20000002#32, 0x20000003#32, 0x20000001#32, 0x20000000#32] ∧
    wordsOf ["CYCLE 5 [TICKS=7]"] =
      some [0x50000000#32, 0x30000005#32, 0x51000000#32, 0x52000000#32, 0x40000000#32, 0x53000000#32] := by decide

/-! ### Witnesses: the hypotheses of each statement can be met, each clause at a boundary -/

/-- A stimulus list in front of a state. -/
def offered (x : List Stimulus) (s : State) : State := { s with inputs := x }

theorem witness_DecodedWordsEncodeBack : decode 0x10010FFF#32 = .ok (.rfWrite .pot 4095#12) := by decide
theorem witness_OpcodeMapSelectsTheDecodedOperation :
    (⟨"RF_READ", 0x11000000#32, 0xFFFEFFF0#32⟩ : OpcodeRow) ∈ opcodeMap ∧ 0x1101000F#32 &&& 0xFFFEFFF0#32 = 0x11000000#32 := by
  decide
theorem witness_UnlistedWordIsIllegalCommand : (∀ row ∈ opcodeMap, 0x10001000#32 &&& row.mask ≠ row.bits) ∧
    (offered [.command 0x10001000#32 (freePorts 0#32)] State.reset).inputs =
      .command 0x10001000#32 (freePorts 0#32) :: [] := by decide
theorem witness_OutOfRangeOperandIsIllegalOperand : (Instr.rfRead .height 5#4).wellFormed = false ∧
    (Instr.setTgtY 24#5).wellFormed = false ∧ (Instr.rfRead .height 4#4).wellFormed = true ∧
    ∃ t, exec (.rfRead .height 4#4) State.reset = .next t := ⟨by decide, by decide, by decide, _, rfl⟩
theorem witness_StepPerformsThePresentedOperation :
    (offered [.command 0x40000000#32 (freePorts 5#32)] State.reset).inputs = .command 0x40000000#32 (freePorts 5#32) :: [] ∧
    decode 0x40000000#32 = .ok .ctlRun := by decide
theorem witness_StepPerformsTheAgentsProgram_sampler : ∃ t,
    (offered [.sampler 7#12 (freePorts 5#32)] State.reset).inputs = .sampler 7#12 (freePorts 5#32) :: [] ∧
    exec (samplerOp State.reset.samplerAt 7#12) { offered [.sampler 7#12 (freePorts 5#32)] State.reset with
      inputs := [], cmd := encode (samplerOp State.reset.samplerAt 7#12), ports := freePorts 5#32 } = .next t := ⟨_, rfl, rfl⟩
theorem witness_StepPerformsTheAgentsProgram_control : ∃ t,
    (offered [.control (freePorts 5#32)] State.reset).inputs = .control (freePorts 5#32) :: [] ∧
    exec (controlOp State.reset.controlAt) { offered [.control (freePorts 5#32)] State.reset with
      inputs := [], cmd := encode (controlOp State.reset.controlAt), ports := freePorts 5#32 } = .next t := ⟨_, rfl, rfl⟩
theorem witness_StepPerformsTheAgentsProgram_phaseEdge : ∃ t,
    (offered [.phaseEdge 1#1 0#1] State.reset).inputs = .phaseEdge 1#1 0#1 :: [] ∧
    exec (.qdEdge 1#1 0#1) { offered [.phaseEdge 1#1 0#1] State.reset with
      inputs := [], cmd := encode (.qdEdge 1#1 0#1) } = .next t := ⟨_, rfl, rfl⟩
theorem witness_StepPerformsTheAgentsProgram_refPin : ∃ t, (offered [.refPin] State.reset).inputs = .refPin :: [] ∧
    exec .qdRef { offered [.refPin] State.reset with inputs := [], cmd := encode .qdRef } = .next t := ⟨_, rfl, rfl⟩
theorem witness_ResetEventSetsEveryRegister : (offered [.reset] (inPhase .ctl)).inputs = .reset :: [] := by decide
theorem witness_ResponseIsZeroUnlessAReadIsOk : ∃ t u, exec .hsTakeC State.reset = .next t ∧ t.status ≠ .ok ∧
    exec (.setTgtH 10#4) State.reset = .next u ∧ u.status = .ok := ⟨_, _, rfl, by decide, rfl, by decide⟩
theorem witness_TurnedAwayOperationsChangeNothing : ∃ t, exec .ctlRun State.reset = .next t ∧ t.status ≠ .ok ∧
    t.status ≠ .fatal := ⟨_, rfl, by decide, by decide⟩
theorem witness_RfWriteChangesOneStoredWord : ∃ t u, exec (.rfWrite .height 9#12) State.reset = .next t ∧
    exec (.rfWrite .pot 9#12) State.reset = .next u ∧ (Space.rf0 ≠ .rf0 ∨ (1 : Nat) ≠ State.reset.rf0.wr.val) ∧
    (Space.rf0 ≠ .rf1 ∨ (0 : Nat) ≠ State.reset.rf1.wr.val) := ⟨_, _, rfl, rfl, by decide, by decide⟩
theorem witness_RfReadAnswersTheWindowElement : (4#4).toNat < 5 ∧ (9#4).toNat < 10 ∧ 5 ≤ (5#4).toNat ∧ 10 ≤ (10#4).toNat := by
  decide
theorem witness_WindowHoldsTheLastWrites : 0 < 1 := by decide
theorem witness_ReadsChangeNothingAndRepeat : ∃ t u v, exec (.rfRead .pot 15#4) State.reset = .next t ∧
    exec (.rfMean .height) State.reset = .next u ∧ exec .qdYaw State.reset = .next v := ⟨_, _, _, rfl, rfl, rfl⟩
theorem witness_NormalisationCorrectsOnce : (225 : Int) > 224 ∧ (-224 : Int) < -223 ∧ (-223 : Int) ≤ -223 ∧ (224 : Int) ≤ 224 ∧
    (-224 : Int) ≤ 225 := by decide
theorem witness_CounterStaysInRange : ∃ t, CounterLegal { State.reset with qdCnt := BitVec.ofInt 9 (-223) } ∧
    step { State.reset with qdCnt := BitVec.ofInt 9 (-223), inputs := [.phaseEdge 0#1 1#1] } = .next t :=
  ⟨_, by unfold CounterLegal; decide, step_of_decode_ok (x := .phaseEdge 0#1 1#1) rfl rfl
    (show decode (encode (.qdEdge 0#1 1#1)) = .ok (.qdEdge 0#1 1#1) by decide) rfl⟩
theorem witness_QdRefIsOneShot : State.reset.qdRefEn = true ∧ { State.reset with qdRefEn := false }.qdRefEn = false := by decide
theorem witness_DegreeIsWithinOneOfTheExactRatio : (224 : Int) = 56 * 4 ∧ (-223 : Int) ≤ -223 ∧ (224 : Int) ≤ 224 := by decide
theorem witness_InterruptsTouchOnlyTheDecoder :
    (offered [.refPin] { inPhase .ctl with fatalC := true }).inputs = .refPin :: [] ∧
    (offered [.phaseEdge 1#1 1#1] (inPhase .smp)).inputs = .phaseEdge 1#1 1#1 :: [] := by decide
theorem witness_FullPairCycleCountsFourTicks : Config.Params.default.const = Config.sourceConstants ∧
    Config.Params.default.dirTable = Config.defaultDirTable ∧ CounterLegal State.reset :=
  ⟨rfl, rfl, by unfold CounterLegal; decide⟩
theorem witness_SmpRunCompletesACycle : (inPhase .smp).fatalS = false ∧ (inPhase .smp).hs = .smp ∧
    (inPhase .smp).ports.fullDH = false ∧ (inPhase .smp).ports.fullDY = false ∧ (inPhase .smp).smpCalDone = false ∧
    (inPhase .smp).tgtH.val = 0 := by decide
theorem witness_SmpRunCompletesACycle_calibrated : { inPhase .smp with smpCalDone := true }.smpCalDone = true ∧
    { inPhase .smp with tgtH := 1 }.tgtH.val ≠ 0 := by decide
theorem witness_SmpRunHaltsOnAFullMailbox :
    { inPhase .smp with ports := { freePorts 0#32 with fullDH := true } }.ports.fullDH = true ∧
    { inPhase .smp with ports := { freePorts 0#32 with fullDY := true } }.ports.fullDH = false ∧
    { inPhase .smp with ports := { freePorts 0#32 with fullDY := true } }.ports.fullDY = true ∧
    (inPhase .smp).fatalS = false ∧ (inPhase .smp).hs = .smp := by decide
theorem witness_GroundIsCapturedOnce : { State.reset with smpCalDone := true }.smpCalDone = true ∧
    { State.reset with smpCalDone := true }.inputs.head? ≠ some .reset ∧
    ∃ t, step { State.reset with smpCalDone := true } = .next t := ⟨by decide, by decide, _, rfl⟩
theorem witness_UncalibratedGroundStaysZero : UncalibratedIsZero State.reset ∧ ∃ t, step State.reset = .next t :=
  ⟨fun _ => rfl, _, rfl⟩
theorem witness_UncalibratedGroundStaysZero_run : UncalibratedIsZero { inPhase .smp with tgtH := 1 } ∧
    { inPhase .smp with tgtH := 1 }.smpCalDone = false ∧ { inPhase .smp with tgtH := 1 }.tgtH.val ≠ 0 ∧
    (inPhase .smp).fatalS = false ∧ { inPhase .smp with tgtH := 1 }.hs = .smp ∧ (inPhase .smp).ports.fullDH = false ∧
    (inPhase .smp).ports.fullDY = false := ⟨fun _ => rfl, by decide⟩
theorem witness_CtlRunCompletesACycle : (inPhase .ctl).fatalC = false ∧ (inPhase .ctl).hs = .ctl ∧
    { inPhase .ctl with ports := freePorts 999999999#32 }.ports.ticks.toNat < (inPhase .ctl).ctlLastTicks.toNat ∧
    { inPhase .ctl with ports := freePorts 999999999#32 }.ports.fullAH = false ∧
    { inPhase .ctl with ports := freePorts 999999999#32 }.ports.fullAY = false := by decide
theorem witness_CtlRunHaltsWhenNoTimePassed : (inPhase .ctl).fatalC = false ∧ (inPhase .ctl).hs = .ctl ∧
    (inPhase .ctl).ctlLastTicks.toNat ≤ { inPhase .ctl with ports := freePorts 1000000000#32 }.ports.ticks.toNat := by decide
theorem witness_CtlRunHaltsOnAFullMailbox : (inPhase .ctl).fatalC = false ∧ (inPhase .ctl).hs = .ctl ∧
    { inPhase .ctl with ports := { freePorts 399999999#32 with fullAH := true } }.ports.fullAH = true ∧
    { inPhase .ctl with ports := { freePorts 399999999#32 with fullAY := true } }.ports.fullAH = false ∧
    { inPhase .ctl with ports := { freePorts 399999999#32 with fullAY := true } }.ports.fullAY = true ∧
    (399999999#32).toNat < (inPhase .ctl).ctlLastTicks.toNat := by decide
theorem witness_PidStepResetsThenAccumulates : (0 : Rat) < 1 / 2 ∧ |(-19 : Int)| < Config.sourceConstants.height.db ∧
    Config.sourceConstants.height.db ≤ |(20 : Int)| := by decide +kernel
theorem witness_DutyIsClamped : (99 : Rat) ≤ 99 ∧ (85 : Rat) ≤ 85 ∧ (0 : Rat) ≤ 0 := by decide +kernel
theorem witness_YawErrorWrapsOnOneSideOnly : (1 : Int) - (-180) > 180 ∧ (0 : Int) - (-180) ≤ 180 := by decide
theorem witness_PublishedValuesStayInRange : CounterLegal State.reset ∧ TraceLegal State.reset ∧
    ∃ t, step State.reset = .next t := ⟨by unfold CounterLegal; decide, (fun _ h => nomatch h), _, rfl⟩
theorem witness_HeightErrorStaysInRange : HeightErrorLegal { State.reset with pidH := ⟨0, -4095⟩ } ∧
    ∃ t, step { State.reset with pidH := ⟨0, -4095⟩ } = .next t := ⟨by unfold HeightErrorLegal; decide, _, rfl⟩
theorem witness_AxesAreIndependent : ∃ t u, exec .ctlRun (inPhase .ctl) = .next t ∧
    exec .ctlRun { inPhase .ctl with pidY := ⟨1, 2⟩, chY := 5#9, tgtY := 23 } = .next u := ⟨_, _, rfl, rfl⟩
theorem witness_AxesAreIndependent_yaw : ∃ t u, exec .ctlRun { inPhase .ctl with tgtH := 1 } = .next t ∧
    cycleParked params { inPhase .ctl with tgtH := 10, chH := 4095#12 } =
      cycleParked params { inPhase .ctl with tgtH := 1 } ∧
    exec .ctlRun { inPhase .ctl with pidH := ⟨1, 2⟩, tgtH := 10, chH := 4095#12 } = .next u := ⟨_, _, rfl, rfl, rfl⟩
theorem witness_ReferencePinIsInvisibleElsewhere : ∃ t, Instr.smpRun 9#12 ≠ .qdRef ∧
    exec (.smpRun 9#12) (inPhase .smp) = .next t := ⟨_, by decide, rfl⟩
theorem witness_SetpointDeliveriesAreRangeChecked : (10#4).toNat ≤ 10 ∧ 10 < (11#4).toNat ∧ (23#5).toNat ≤ 23 ∧
    23 < (24#5).toNat := by decide
theorem witness_TakesMoveTheTokenOrBlock : { inPhase .smp with fatalS := true }.fatalS = true ∧ (inPhase .wfs).hs = .wfs ∧
    (inPhase .wfs).fatalS = false ∧ (inPhase .smp).hs ≠ .wfs ∧ { inPhase .ctl with fatalC := true }.fatalC = true ∧
    (inPhase .wfc).hs = .wfc ∧ (inPhase .wfc).fatalC = false ∧ (inPhase .ctl).hs ≠ .wfc := by decide
theorem witness_GivesMoveTheTokenOrAreRefused : { inPhase .smp with fatalS := true }.fatalS = true ∧ (inPhase .smp).hs = .smp ∧
    (inPhase .smp).fatalS = false ∧ (inPhase .wfs).hs ≠ .smp ∧ { inPhase .ctl with fatalC := true }.fatalC = true ∧
    (inPhase .ctl).hs = .ctl ∧ (inPhase .ctl).fatalC = false ∧ (inPhase .wfc).hs ≠ .ctl := by decide
theorem witness_OperationsOutsideTheirPhaseAreRefused : (inPhase .wfs).fatalS = false ∧ (inPhase .wfs).hs ≠ .smp ∧
    (inPhase .wfc).fatalC = false ∧ (inPhase .wfc).hs ≠ .ctl := by decide
theorem witness_HaltedTasksOperationsAreRefused : { inPhase .smp with fatalS := true }.fatalS = true ∧
    { inPhase .ctl with fatalC := true }.fatalC = true := by decide
theorem witness_TokenMovesOnlyRoundTheRing : ∃ t, exec .hsGiveS (inPhase .ctl) = .next t ∧ t.hs ≠ (inPhase .ctl).hs :=
  ⟨_, rfl, by decide⟩
theorem witness_TasksAlternateStrictly : Alternation State.reset ∧
    (∀ x ∈ [Stimulus.sampler 5#12 (freePorts 0#32), .command 0x6000000A#32 (freePorts 0#32), .reset],
      followsPrograms x = true) ∧
    ∃ t, step (offered [.sampler 5#12 (freePorts 0#32), .command 0x6000000A#32 (freePorts 0#32), .reset] State.reset) =
      .next t :=
  ⟨⟨(fun _ h => nomatch h), rfl, rfl, rfl⟩, by decide, _, step_of_decode_ok (x := .sampler 5#12 (freePorts 0#32)) rfl rfl
    (show decode (encode .hsTakeS) = .ok .hsTakeS by decide) rfl⟩
theorem witness_ProgramsNeverViolateTheProtocol : ∃ t, Alternation State.reset ∧
    (offered [.control (freePorts 0#32)] State.reset).inputs = .control (freePorts 0#32) :: [] ∧
    (Stimulus.control (freePorts 0#32)).agent = .control ∧
    step (offered [.control (freePorts 0#32)] State.reset) = .next t :=
  ⟨_, ⟨(fun _ h => nomatch h), rfl, rfl, rfl⟩, rfl, rfl, step_of_decode_ok (x := .control (freePorts 0#32)) rfl rfl
    (show decode (encode .hsTakeC) = .ok .hsTakeC by decide) rfl⟩
theorem witness_FatalHaltsArePermanent : { inPhase .smp with fatalS := true }.inputs.head? ≠ some .reset ∧
    { inPhase .smp with fatalS := true }.fatalS = true ∧ { inPhase .ctl with fatalC := true }.fatalC = true ∧
    ∃ t, step { inPhase .smp with fatalS := true } = .next t := ⟨by decide, by decide, by decide, _, rfl⟩
theorem witness_PipelineStaysStoppedAfterAHalt : PipelineStopped { inPhase .smp with fatalS := true } ∧
    PipelineStopped { inPhase .ctl with fatalC := true } ∧
    { inPhase .smp with fatalS := true }.inputs.head? ≠ some .reset ∧
    ∃ t, step { inPhase .smp with fatalS := true } = .next t :=
  ⟨.inl ⟨rfl, rfl⟩, .inr ⟨rfl, rfl⟩, by decide, _, rfl⟩
theorem witness_FaultRecordsStayConsistent :
    FaultRecordsAgree { inPhase .ctl with fatalC := true, fatalCauseC := 5#4 } ∧
    ∃ t, step { inPhase .ctl with fatalC := true, fatalCauseC := 5#4 } = .next t :=
  ⟨by unfold FaultRecordsAgree; decide, _, rfl⟩
theorem witness_OnlyListedOperationsWriteARegister : ∃ t, exec (.rfWrite .height 1#12) State.reset = .next t ∧
    Reg.rf1Slot ∉ writes (.rfWrite .height 1#12) := ⟨_, rfl, by decide⟩
theorem witness_AgentsWriteOnlyTheirOwnRegisters : ∃ t,
    (offered [.phaseEdge 0#1 1#1] State.reset).inputs = .phaseEdge 0#1 1#1 :: [] ∧
    keepsOwnership (.phaseEdge 0#1 1#1) = true ∧ step (offered [.phaseEdge 0#1 1#1] State.reset) = .next t ∧
    (Stimulus.phaseEdge 0#1 1#1).agent.owns .hs = false :=
  ⟨_, rfl, rfl, step_of_decode_ok (x := .phaseEdge 0#1 1#1) rfl rfl
    (show decode (encode (.qdEdge 0#1 1#1)) = .ok (.qdEdge 0#1 1#1) by decide) rfl, by decide⟩
theorem witness_AgentsWriteOnlyTheirOwnRegisters_env :
    keepsOwnership (.command (encode (.setTgtH 10#4)) (freePorts 0#32)) = true ∧
    keepsOwnership (.command (encode (.rfWrite .pot 9#12)) (freePorts 0#32)) = true ∧
    Agent.env.owns .tgtH = true ∧ Agent.env.owns .rf1Wr = true ∧ Agent.env.owns .qdCnt = false ∧
    (offered [.command (encode (.rfWrite .height 9#12)) (freePorts 0#32)] State.reset).inputs =
      .command (encode (.rfWrite .height 9#12)) (freePorts 0#32) :: [] := by decide

/-- Six turns of the tasks from reset, with free mailboxes and one tick elapsed. -/
def oneCycle : State :=
  let q := freePorts 999999999#32
  offered [.sampler 1#12 q, .sampler 2#12 q, .sampler 3#12 q, .control q, .control q, .control q] State.reset

theorem witness_OneWholeCycleCompletes : let q := freePorts 999999999#32
    oneCycle.hs = .wfs ∧ oneCycle.samplerAt = .take ∧ oneCycle.controlAt = .take ∧ oneCycle.fatalS = false ∧
    oneCycle.fatalC = false ∧
    oneCycle.inputs = [.sampler 1#12 q, .sampler 2#12 q, .sampler 3#12 q, .control q, .control q, .control q] ++ [] ∧
    q.fullDH = false ∧ q.fullDY = false ∧ q.fullAH = false ∧ q.fullAY = false ∧ q.ticks.toNat < oneCycle.ctlLastTicks.toNat := by
  decide

/-- A schedule of the Sampler alone is fair to it, at the boundary state of each clause. -/
theorem witness_FairSamplerTakesAnAvailableGate :
    (∀ s, WeaklyFair .sampler (fun _ => true) (fun _ => .sampler 0#12 (freePorts 0#32)) s) ∧
    AdcAnswers (fun _ => true) ∧
    (∀ n : Nat, followsPrograms ((fun _ : Nat => Stimulus.sampler 0#12 (freePorts 0#32)) n) = true ∧
      (fun _ : Nat => Stimulus.sampler 0#12 (freePorts 0#32)) n ≠ .reset) ∧
    State.reset.hs = .wfs ∧ State.reset.samplerAt = .take ∧ State.reset.fatalS = false ∧
    { inPhase .smp with samplerAt := .run }.hs = .smp ∧ { inPhase .smp with samplerAt := .run }.samplerAt = .run :=
  ⟨(fun _ n _ => ⟨n, Nat.le_refl n, rfl⟩), ⟨0, fun _ _ => rfl⟩, (fun _ => ⟨rfl, Stimulus.noConfusion⟩), by decide,
    by decide, by decide, by decide, by decide⟩

/-- R264: fairness does not exclude an ADC that never becomes ready, a Sampler that never steps: with its `SMP_RUN` due,
the schedule of reference edges alone is fair to it. -/
theorem test_fairness_allows_a_silent_adc :
    WeaklyFair .sampler (fun _ => false) (fun _ => .refPin) { inPhase .smp with samplerAt := .run } ∧
    ∀ n : Nat, ((fun _ : Nat => Stimulus.refPin) n).agent ≠ .sampler := by
  refine ⟨fun n h => ?_, fun _ => Agent.noConfusion⟩
  have hs := taskEnabled_run_without_adc (refPin_schedule_keeps_sampler { inPhase .smp with samplerAt := .run } n)
  exact absurd (h n (Nat.le_refl n)) (by rw [hs]; decide)

end Sys2Proof.Machine.Tests
end

section
/-! PROOFS. The decoder reads every operation's own word back (R86 to R89), every operation answers a next state (93
part 1), and what a step performs (R10, R70). -/

namespace Sys2Proof

/-- The decoder sees a packed word's own four fields (R86). -/
theorem decode_packFields (u f : BitVec 4) (s : BitVec 8) (i : BitVec 16) :
    decode (packFields u f s i) = decodeFields u f s i := by
  rw [decode, unitField_packFields, funcField_packFields, selField_packFields, immField_packFields]

/-- Format `SI` reads its ring and its operand back (R87). -/
theorem formatSI_sel_setWidth {n : Nat} (hn : n ≤ 16) (mk : Ring → BitVec n → Instr) (i : Ring) (x : BitVec n) :
    formatSI n mk i.sel (x.setWidth 16) = .ok (mk i x) := by
  rw [formatSI, ringOfSel_sel, operandOfImm_setWidth hn]

/-- Format `I` reads its operand back (R87). -/
theorem formatI_setWidth {n : Nat} (hn : n ≤ 16) (mk : BitVec n → Instr) (x : BitVec n) :
    formatI n mk 0#8 (x.setWidth 16) = .ok (mk x) := by
  rw [formatI, operandOfImm_setWidth hn]
  exact if_pos rfl

/-- Format `N` accepts zero fields (R87). -/
theorem formatN_zero (i : Instr) : formatN i 0#8 0#16 = .ok i := if_pos ⟨rfl, rfl⟩

/-- The decoder reads every operation's own word back, whatever its operands (R87 to R89). -/
theorem decode_encode (i : Instr) : decode (encode i) = .ok i := by
  cases i with
  | rfWrite i v => exact (decode_packFields ..).trans (formatSI_sel_setWidth (by decide) _ i v)
  | rfRead i k => exact (decode_packFields ..).trans (formatSI_sel_setWidth (by decide) _ i k)
  | rfMean i => exact (decode_packFields ..).trans (formatSI_sel_setWidth (by decide) (fun i _ => .rfMean i) i 0#0)
  | qdEdge b a =>
    have hb : (b ++ a).extractLsb' 1 1 = b := BitVec.extractLsb'_append_eq_left
    have ha : (b ++ a).extractLsb' 0 1 = a := BitVec.extractLsb'_append_eq_right
    calc decode (encode (.qdEdge b a))
        = .ok (.qdEdge ((b ++ a).extractLsb' 1 1) ((b ++ a).extractLsb' 0 1)) :=
          (decode_packFields ..).trans (formatI_setWidth (by decide) _ (b ++ a))
      _ = .ok (.qdEdge b a) := by rw [hb, ha]
  | qdRef => exact (decode_packFields ..).trans (formatN_zero _)
  | qdYaw => exact (decode_packFields ..).trans (formatN_zero _)
  | smpRun r => exact (decode_packFields ..).trans (formatI_setWidth (by decide) _ r)
  | ctlRun => exact (decode_packFields ..).trans (formatN_zero _)
  | hsTakeS => exact (decode_packFields ..).trans (formatN_zero _)
  | hsGiveC => exact (decode_packFields ..).trans (formatN_zero _)
  | hsTakeC => exact (decode_packFields ..).trans (formatN_zero _)
  | hsGiveS => exact (decode_packFields ..).trans (formatN_zero _)
  | setTgtH x => exact (decode_packFields ..).trans (formatI_setWidth (by decide) _ x)
  | setTgtY y => exact (decode_packFields ..).trans (formatI_setWidth (by decide) _ y)

end Sys2Proof

namespace Sys2Proof.Machine

/-- Every operation answers a next state, in every state: a refusal of the block is one too (93 part 1). -/
theorem exec_eq_next (i : Instr) (s : State) : ∃ t, exec i s = .next t := by
  cases i with
  | rfRead r k => simp only [exec, execRfRead]; split <;> exact ⟨_, rfl⟩
  | setTgtH x => simp only [exec, execSetTgtH]; split <;> exact ⟨_, rfl⟩
  | setTgtY y => simp only [exec, execSetTgtY]; split <;> exact ⟨_, rfl⟩
  | _ => exact ⟨_, rfl⟩

/-- A step on a stimulus that presents an operation's own word performs that operation (R9, R10). -/
theorem step_of_encode {s t : State} {x : Stimulus} {rest : List Stimulus} {i : Instr} (hx : s.inputs = x :: rest)
    (hw : stimulusWord s x = some (encode i)) (he : exec i (presented x rest (encode i) s) = .next t) :
    step s = .next (advanceTask x t) :=
  step_of_decode_ok hx hw (decode_encode i) he

/-- The Sampler's place moves on exactly after an OK answer (R70; log 5). -/
theorem advanceTask_sampler (r : RawSample) (q : Ports) (t : State) :
    advanceTask (.sampler r q) t = { t with samplerAt := if t.status = .ok then t.samplerAt.next else t.samplerAt } := by
  by_cases h : t.status = .ok <;> simp only [advanceTask, h, if_true, if_false]

/-- The Control Loop's place moves on exactly after an OK answer (R70; log 5). -/
theorem advanceTask_control (q : Ports) (t : State) :
    advanceTask (.control q) t = { t with controlAt := if t.status = .ok then t.controlAt.next else t.controlAt } := by
  by_cases h : t.status = .ok <;> simp only [advanceTask, h, if_true, if_false]

/-- Settles O7: the operation answers some next state, and a presented word is no task's turn, so nothing moves on. -/
theorem stepPerformsThePresentedOperation : Obligations.StepPerformsThePresentedOperation := by
  intro w q rest s i hx hd
  obtain ⟨t, ht⟩ := exec_eq_next i { s with inputs := rest, cmd := w, ports := q }
  rw [ht]
  exact step_of_decode_ok hx rfl hd ht

/-- Settles O8: each agent presents its own operation's word, which decodes back to that operation. -/
theorem stepPerformsTheAgentsProgram : Obligations.StepPerformsTheAgentsProgram := by
  intro rest s t
  refine ⟨fun r q hx he => ?sampler, fun q hx he => ?control, fun b a hx he => ?phaseEdge, fun hx he => ?refPin⟩
  case sampler => rw [← advanceTask_sampler r q]; exact step_of_encode hx rfl he
  case control => rw [← advanceTask_control q]; exact step_of_encode hx rfl he
  case phaseEdge => exact step_of_encode hx rfl he
  case refPin => exact step_of_encode hx rfl he

end Sys2Proof.Machine
end

section
/-! PROOFS. Which registers the named operations, an operation of the opcode map and a step may write (R38, R41), and what
that leaves of the ground, the height error and the halt records (R27, R35, R185). -/

namespace Sys2Proof.Machine

/-! ### The frame calculus: which registers may differ between two states -/

/-- Every register of R38 holds the same value in both states. -/
def SameRegs (s t : State) : Prop := ∀ r : Reg, r.same s t

/-- Only registers of the list `l` may hold different values in the two states. -/
def WritesOnly (l : List Reg) (s t : State) : Prop := ∀ r : Reg, r ∉ l → r.same s t

theorem Reg.same_trans {r : Reg} {s t u : State} (h : r.same s t) (h' : r.same t u) : r.same s u := by
  cases r <;> exact Eq.trans h' h

theorem SameRegs.writesOnly {l : List Reg} {s t : State} (h : SameRegs s t) : WritesOnly l s t := fun r _ => h r

theorem SameRegs.trans {s t u : State} (h : SameRegs s t) (h' : SameRegs t u) : SameRegs s u :=
  fun r => Reg.same_trans (h r) (h' r)

theorem WritesOnly.trans {l : List Reg} {s t u : State} (h : WritesOnly l s t) (h' : WritesOnly l t u) :
    WritesOnly l s u := fun r hr => Reg.same_trans (h r hr) (h' r hr)

theorem WritesOnly.then_same {l : List Reg} {s t u : State} (h : WritesOnly l s t) (h' : SameRegs t u) :
    WritesOnly l s u := h.trans h'.writesOnly

theorem WritesOnly.mono {l m : List Reg} {s t : State} (hlm : l ⊆ m) (h : WritesOnly l s t) : WritesOnly m s t :=
  fun r hr => h r fun hl => hr (hlm hl)

/-! ### One frame rule per state operation -/

theorem sameRegs_emit (e : Event) (s : State) : SameRegs s (emit e s) := fun r => by cases r <;> rfl

theorem sameRegs_respond (v : Resp) (s : State) : SameRegs s (respond v s) := fun r => by cases r <;> rfl

theorem sameRegs_turnAway (reason : Status) (s : State) : SameRegs s (turnAway reason s) := fun r => by cases r <;> rfl

theorem sameRegs_presented (x : Stimulus) (rest : List Stimulus) (w : Word) (s : State) :
    SameRegs s (presented x rest w s) := fun r => by cases r <;> rfl

theorem sameRegs_advanceTask (x : Stimulus) (s : State) : SameRegs s (advanceTask x s) := by
  rw [advanceTask_eq]
  exact fun r => by cases r <;> rfl

/-- The halt record of a task (R35). -/
def haltRegs : Task → List Reg
  | .sampler => [.fatalS, .fatalCauseS]
  | .control => [.fatalC, .fatalCauseC]

theorem writesOnly_raiseFatal (task : Task) (c : Cause) (ch : Option Channel) (s : State) :
    WritesOnly (haltRegs task) s (raiseFatal task c ch s) := by
  intro r hr
  cases task <;> cases r <;> simp [haltRegs, Reg.same] at hr ⊢

theorem writesOnly_pushSample (i : Ring) (v : RawSample) (s : State) :
    WritesOnly (writes (.rfWrite i v)) s (pushSample i v s) := by
  intro r hr
  cases i <;> cases r <;> simp [writes, Reg.same] at hr ⊢

theorem writesOnly_smpWork (p : Config.Params) (v : RawSample) (s : State) :
    WritesOnly [.rf0Slot, .rf0Wr, .smpGround, .smpCalDone, .chH, .chY] s (smpWork p v s) := by
  intro r hr
  cases r <;> simp [Reg.same] at hr ⊢

theorem writesOnly_noteTicks (p : Config.Params) (s : State) : WritesOnly [.ctlLastTicks] s (noteTicks p s) := by
  intro r hr
  cases r <;> simp [Reg.same] at hr ⊢

theorem writesOnly_hs (x : Handoff) (s : State) : WritesOnly [.hs] s { s with hs := x } := by
  intro r hr
  cases r <;> simp [Reg.same] at hr ⊢

theorem writesOnly_pidH (x : Pid) (s : State) : WritesOnly [.pidHI, .pidHLast] s { s with pidH := x } := by
  intro r hr
  cases r <;> simp [Reg.same] at hr ⊢

theorem writesOnly_pidY (x : Pid) (s : State) : WritesOnly [.pidYI, .pidYLast] s { s with pidY := x } := by
  intro r hr
  cases r <;> simp [Reg.same] at hr ⊢

theorem writesOnly_tgtH (x : Fin Config.hSteps) (s : State) : WritesOnly [.tgtH] s { s with tgtH := x } := by
  intro r hr
  cases r <;> simp [Reg.same] at hr ⊢

theorem writesOnly_tgtY (x : Fin Config.ySteps) (s : State) : WritesOnly [.tgtY] s { s with tgtY := x } := by
  intro r hr
  cases r <;> simp [Reg.same] at hr ⊢

theorem writesOnly_qdRefEn (x : Bool) (s : State) : WritesOnly [.qdRefEn] s { s with qdRefEn := x } := by
  intro r hr
  cases r <;> simp [Reg.same] at hr ⊢

theorem writesOnly_counterAndPair (c : BitVec 9) (a b : BitVec 1) (s : State) :
    WritesOnly [.qdCnt, .qdPa, .qdPb] s { s with qdCnt := c, qdPa := a, qdPb := b } := by
  intro r hr
  cases r <;> simp [Reg.same] at hr ⊢

theorem writesOnly_takeGate (task : Task) (src dst : Handoff) (s : State) :
    WritesOnly [.hs] s (takeGate task src dst s) := by
  rcases takeGate_cases task src dst s with ⟨_, e⟩ | ⟨_, _, e⟩ | ⟨_, _, e⟩ <;> rw [e]
  · exact (sameRegs_turnAway _ _).writesOnly
  · exact (writesOnly_hs _ _).then_same (sameRegs_respond _ _)
  · exact (sameRegs_turnAway _ _).writesOnly

theorem writesOnly_giveGate (task : Task) (src dst : Handoff) (s : State) :
    WritesOnly [.hs] s (giveGate task src dst s) := by
  rcases giveGate_cases task src dst s with ⟨_, e⟩ | ⟨_, _, e⟩ | ⟨_, _, e⟩ <;> rw [e]
  · exact (sameRegs_turnAway _ _).writesOnly
  · exact (writesOnly_hs _ _).then_same (sameRegs_respond _ _)
  · exact (sameRegs_turnAway _ _).writesOnly

/-! ### What an operation writes (R38) -/

/-- Whichever of its five outcomes it has, `SMP_RUN` writes only the Sampler's rows of R38 (R160, R164). -/
theorem writesOnly_smpRunWith (p : Config.Params) (v : RawSample) (s : State) :
    WritesOnly (writes (.smpRun v)) s (smpRunWith p v s) := by
  have hw : WritesOnly (writes (.smpRun v)) s (smpWork p v (emit .samplerRun s)) :=
    (sameRegs_emit _ _).writesOnly.trans ((writesOnly_smpWork _ _ _).mono (by simp [writes]))
  have halt (c : Cause) (ch : Option Channel) (u : State) :
      WritesOnly (writes (.smpRun v)) u (raiseFatal .sampler c ch u) :=
    (writesOnly_raiseFatal _ _ _ _).mono (by simp [writes, haltRegs])
  rcases smpRunWith_cases p v s with ⟨_, e⟩ | ⟨_, _, e⟩ | ⟨_, _, _, e⟩ | ⟨_, _, _, _, e⟩ | ⟨_, _, _, _, e⟩ <;> rw [e]
  · exact (sameRegs_turnAway _ _).writesOnly
  · exact (sameRegs_turnAway _ _).writesOnly
  · exact hw.trans (halt _ _ _)
  · exact (hw.then_same (sameRegs_emit _ _)).trans (halt _ _ _)
  · exact ((hw.then_same (sameRegs_emit _ _)).then_same (sameRegs_emit _ _)).then_same (sameRegs_respond _ _)

/-- Whichever of its six outcomes it has, `CTL_RUN` writes only the Control Loop's rows of R38 (R180, R184, R195). -/
theorem writesOnly_ctlRunWith (p : Config.Params) (s : State) : WritesOnly (writes .ctlRun) s (ctlRunWith p s) := by
  have hemit : WritesOnly (writes .ctlRun) s (emit .controlRun s) := (sameRegs_emit _ _).writesOnly
  have hticks : WritesOnly (writes .ctlRun) s (noteTicks p (emit .controlRun s)) :=
    hemit.trans ((writesOnly_noteTicks _ _).mono (by simp [writes]))
  have pidH (x : Pid) (u : State) : WritesOnly (writes .ctlRun) u { u with pidH := x } :=
    (writesOnly_pidH _ _).mono (by simp [writes])
  have pidY (x : Pid) (u : State) : WritesOnly (writes .ctlRun) u { u with pidY := x } :=
    (writesOnly_pidY _ _).mono (by simp [writes])
  have halt (c : Cause) (ch : Option Channel) (u : State) :
      WritesOnly (writes .ctlRun) u (raiseFatal .control c ch u) :=
    (writesOnly_raiseFatal _ _ _ _).mono (by simp [writes, haltRegs])
  rcases ctlRunWith_cases p s with ⟨_, e⟩ | ⟨_, _, e⟩ | ⟨_, _, _, e⟩ | ⟨_, _, _, _, e⟩ | ⟨_, _, _, _, _, e⟩ |
    ⟨_, _, _, _, _, e⟩ <;> rw [e]
  · exact (sameRegs_turnAway _ _).writesOnly
  · exact (sameRegs_turnAway _ _).writesOnly
  · exact hemit.trans (halt _ _ _)
  · exact (hticks.trans (pidH _ _)).trans (halt _ _ _)
  · exact (((hticks.trans (pidH _ _)).then_same (sameRegs_emit _ _)).trans (pidY _ _)).trans (halt _ _ _)
  · exact ((((hticks.trans (pidH _ _)).then_same (sameRegs_emit _ _)).trans (pidY _ _)).then_same
      (sameRegs_emit _ _)).then_same (sameRegs_respond _ _)

/-- An operation writes only the registers R38 lists it as a writer of. -/
theorem exec_writesOnly {i : Instr} {s t : State} (h : exec i s = .next t) : WritesOnly (writes i) s t := by
  cases i with
  | rfWrite i v => cases h; exact (writesOnly_pushSample i v s).then_same (sameRegs_respond _ _)
  | rfRead i k =>
    simp only [exec, execRfRead] at h
    split at h <;> cases h
    · exact (sameRegs_turnAway _ _).writesOnly
    · exact (sameRegs_respond _ _).writesOnly
  | rfMean i => cases h; exact (sameRegs_respond _ _).writesOnly
  | qdEdge b a => cases h; exact (writesOnly_counterAndPair _ _ _ _).then_same (sameRegs_respond _ _)
  | qdRef =>
    simp only [exec, execQdRef] at h
    split at h <;> cases h
    · exact ((writesOnly_qdRefEn _ _).then_same (sameRegs_emit _ _)).then_same (sameRegs_respond _ _)
    · exact (sameRegs_respond _ _).writesOnly
  | qdYaw => cases h; exact (sameRegs_respond _ _).writesOnly
  | smpRun v => cases h; exact writesOnly_smpRunWith _ _ _
  | ctlRun => cases h; exact writesOnly_ctlRunWith _ _
  | hsTakeS => cases h; exact writesOnly_takeGate _ _ _ _
  | hsGiveC => cases h; exact writesOnly_giveGate _ _ _ _
  | hsTakeC => cases h; exact writesOnly_takeGate _ _ _ _
  | hsGiveS => cases h; exact writesOnly_giveGate _ _ _ _
  | setTgtH x =>
    simp only [exec, execSetTgtH] at h
    split at h <;> cases h
    · exact (writesOnly_tgtH _ _).then_same (sameRegs_respond _ _)
    · exact (sameRegs_turnAway _ _).writesOnly
  | setTgtY y =>
    simp only [exec, execSetTgtY] at h
    split at h <;> cases h
    · exact (writesOnly_tgtY _ _).then_same (sameRegs_respond _ _)
    · exact (sameRegs_turnAway _ _).writesOnly

/-- Settles O57: the frame of each operation is its row set of R38. -/
theorem onlyListedOperationsWriteARegister : Obligations.OnlyListedOperationsWriteARegister :=
  fun _ _ _ r h hr => exec_writesOnly h r hr

/-- The ground and the Sampler's halt record have one writer (R38). -/
theorem not_mem_writes_of_ne_smpRun {i : Instr} (hi : ∀ v, i ≠ .smpRun v) :
    ∀ r ∈ .smpGround :: .smpCalDone :: haltRegs .sampler, r ∉ writes i := by
  cases i with
  | smpRun v => exact absurd rfl (hi v)
  | rfWrite i v => cases i <;> simp [writes, haltRegs]
  | _ => simp [writes, haltRegs]

/-- The height axis's last error and the Control Loop's halt record have one writer (R38). -/
theorem not_mem_writes_of_ne_ctlRun {i : Instr} (hi : i ≠ .ctlRun) :
    ∀ r ∈ .pidHLast :: haltRegs .control, r ∉ writes i := by
  cases i with
  | ctlRun => exact absurd rfl hi
  | rfWrite i v => cases i <;> simp [writes, haltRegs]
  | _ => simp [writes, haltRegs]

/-! ### What a step does to the registers -/

/-- A step starts a new session, or leaves every register, or does to the registers what one operation does. -/
theorem step_registers {s t : State} (h : step s = .next t) :
    (s.inputs.head? = some .reset ∧ SameRegs State.reset t) ∨ SameRegs s t ∨
    ∃ x rest w i u v, s.inputs = x :: rest ∧ stimulusWord s x = some w ∧ decode w = .ok i ∧
      SameRegs s u ∧ exec i u = .next v ∧ SameRegs v t := by
  rcases step_cases h with ⟨_, rfl⟩ | ⟨rest, hx, rfl⟩ | ⟨x, rest, w, i, u, hx, _, hw, hd, he, rfl⟩ |
    ⟨x, rest, w, e, _, _, _, _, rfl⟩
  case inl => exact .inr (.inl fun r => by cases r <;> rfl)
  case inr.inl => exact .inl ⟨by rw [hx]; rfl, fun r => by cases r <;> rfl⟩
  case inr.inr.inl =>
    exact .inr (.inr ⟨x, rest, w, i, _, u, hx, hw, hd, sameRegs_presented _ _ _ _, he, sameRegs_advanceTask _ _⟩)
  case inr.inr.inr =>
    exact .inr (.inl (((sameRegs_presented _ _ _ _).trans (sameRegs_turnAway _ _)).trans (sameRegs_advanceTask _ _)))

/-- A transitive relation that holds between states with the same registers, and from before to after any operation, holds
from before to after any step but a reset event. -/
theorem step_relates {R : State → State → Prop} (hsame : ∀ {s t}, SameRegs s t → R s t)
    (htrans : ∀ {s t u}, R s t → R t u → R s u) (hexec : ∀ {i s t}, exec i s = .next t → R s t)
    {s t : State} (hne : s.inputs.head? ≠ some .reset) (h : step s = .next t) : R s t := by
  rcases step_registers h with ⟨hr, _⟩ | hst | ⟨_, _, _, _, _, _, _, _, _, hsu, he, hvt⟩
  · exact absurd hr hne
  · exact hsame hst
  · exact htrans (hsame hsu) (htrans (hexec he) (hsame hvt))

/-- A predicate of the registers that the reset state meets and every operation keeps is kept by every step. -/
theorem step_keeps {P : State → Prop} (hsame : ∀ {s t}, SameRegs s t → P s → P t) (hreset : P State.reset)
    (hexec : ∀ {i s t}, exec i s = .next t → P s → P t) {s t : State} (h : step s = .next t) (hs : P s) : P t := by
  rcases step_registers h with ⟨_, hr⟩ | hst | ⟨_, _, _, _, _, _, _, _, _, hsu, he, hvt⟩
  · exact hsame hr hreset
  · exact hsame hst hs
  · exact hsame hvt (hexec he (hsame hsu hs))

/-! ### The ground (R27, R161) -/

/-- From `s` to `t` the ground and its flag are kept, or the ground is captured for the first time. -/
def GroundKeptOrCaptured (s t : State) : Prop :=
  (t.smpGround = s.smpGround ∧ t.smpCalDone = s.smpCalDone) ∨ (s.smpCalDone = false ∧ t.smpCalDone = true)

/-- The flag after steps 1 to 6 of `SMP_RUN` (R161). -/
theorem smpWork_smpCalDone (p : Config.Params) (v : RawSample) (s : State) :
    (smpWork p v s).smpCalDone = (s.smpCalDone || decide (s.tgtH = 0)) := by rw [smpWork_eq]

/-- The height stored for the Control Loop is the one published (R160, R162). -/
theorem smpWork_chH (p : Config.Params) (v : RawSample) (s : State) :
    (smpWork p v s).chH = BitVec.ofNat 12 (smpHeight (smpWork p v s)) := rfl

/-- `SMP_RUN`'s work touches the ground only to capture it (R161). -/
theorem smpWork_ground (p : Config.Params) (v : RawSample) (s : State) : GroundKeptOrCaptured s (smpWork p v s) := by
  by_cases hcap : s.smpCalDone = false ∧ s.tgtH = 0
  · exact .inr ⟨hcap.1, by simp [smpWork_smpCalDone, hcap]⟩
  · refine .inl ⟨by rw [smpWork_smpGround, if_neg hcap], ?_⟩
    cases hd : s.smpCalDone <;> simp_all [smpWork_smpCalDone]

theorem exec_ground {i : Instr} {s t : State} (h : exec i s = .next t) : GroundKeptOrCaptured s t := by
  by_cases hi : ∃ v, i = .smpRun v
  · obtain ⟨v, rfl⟩ := hi
    have hw := smpWork_ground params v (emit .samplerRun s)
    rw [← Host.Outcome.next.inj h]
    rcases smpRunWith_cases params v s with ⟨_, e⟩ | ⟨_, _, e⟩ | ⟨_, _, _, e⟩ | ⟨_, _, _, _, e⟩ | ⟨_, _, _, _, e⟩ <;>
      rw [e]
    · exact .inl ⟨rfl, rfl⟩
    · exact .inl ⟨rfl, rfl⟩
    all_goals exact hw
  · have hframe := not_mem_writes_of_ne_smpRun fun v hv => hi ⟨v, hv⟩
    exact .inl ⟨exec_writesOnly h .smpGround (hframe _ (by simp)), exec_writesOnly h .smpCalDone (hframe _ (by simp))⟩

/-- A captured ground is still captured, with the same value. -/
def GroundLasts (s t : State) : Prop := s.smpCalDone = true → t.smpCalDone = true ∧ t.smpGround = s.smpGround

theorem GroundKeptOrCaptured.lasts {s t : State} (h : GroundKeptOrCaptured s t) : GroundLasts s t := by
  intro hs
  rcases h with ⟨hg, hd⟩ | ⟨hn, _⟩
  · exact ⟨hd.trans hs, hg⟩
  · rw [hs] at hn; cases hn

theorem GroundLasts.trans {s t u : State} (h : GroundLasts s t) (h' : GroundLasts t u) : GroundLasts s u := fun hs =>
  have ⟨hd, hg⟩ := h hs
  have ⟨hd', hg'⟩ := h' hd
  ⟨hd', hg'.trans hg⟩

/-- Settles O33: an operation touches the ground only to capture it for the first time. -/
theorem groundIsCapturedOnce : Obligations.GroundIsCapturedOnce := by
  intro s t hs hne h
  exact step_relates (R := GroundLasts) (fun hst hs => ⟨(hst .smpCalDone).trans hs, hst .smpGround⟩) GroundLasts.trans
    (fun he => (exec_ground he).lasts) hne h hs

/-- Keeping the ground or capturing it keeps an uncaptured ground 0 (R27). -/
theorem GroundKeptOrCaptured.uncalibratedIsZero {s t : State} (h : GroundKeptOrCaptured s t)
    (hs : UncalibratedIsZero s) : UncalibratedIsZero t := by
  intro ht
  rcases h with ⟨hg, hd⟩ | ⟨_, hd⟩
  · exact hg.trans (hs (hd.symm.trans ht))
  · rw [ht] at hd; cases hd

/-- Nothing is above the ground 0 (R162). -/
theorem heightAbove_zero (m : Nat) : heightAbove 0 m = 0 := by simp [heightAbove]

/-- Settles O34: a ground is no longer 0 only where it is captured, and a nonzero target index captures nothing. -/
theorem uncalibratedGroundStaysZero : Obligations.UncalibratedGroundStaysZero := by
  refine ⟨fun s t hs h => ?keeps, fun v s hs hdone htgt hfatal hhs hfullH hfullY => ?run⟩
  case keeps =>
    exact step_keeps
      (fun hst hs hd => (hst .smpGround).trans (hs ((hst .smpCalDone).symm.trans hd)))
      (fun _ => rfl) (fun he => (exec_ground he).uncalibratedIsZero) h hs
  case run =>
    have htgt' : s.tgtH ≠ 0 := fun h0 => htgt (congrArg Fin.val h0)
    have hground : (smpWork params v (emit .samplerRun s)).smpGround = 0#12 := by
      rw [smpWork_smpGround, if_neg fun h => htgt' h.2]
      exact hs hdone
    have hheight : smpHeight (smpWork params v (emit .samplerRun s)) = 0 := by
      rw [smpHeight_smpWork, hground]; exact heightAbove_zero _
    refine ⟨_, rfl, ?_⟩
    rcases smpRunWith_cases params v s with ⟨hf, _⟩ | ⟨_, hh, _⟩ | ⟨_, _, hp, _⟩ | ⟨_, _, _, hp, _⟩ | ⟨_, _, _, _, e⟩
    · simp [hfatal] at hf
    · exact absurd hhs hh
    · simp [portFull, hfullH] at hp
    · simp [portFull, hfullY] at hp
    · rw [e]
      refine ⟨rfl, ?_, hground, ?_, ?_⟩
      · simp [smpWork_smpCalDone, hdone, htgt']
      · simp [smpWork_chH, hheight]
      · simp [hheight, currentYaw]

/-! ### The height error (R38, R185) -/

theorem heightTable_range : ∀ i : Fin Config.hSteps,
    0 ≤ Config.heightTable.get i ∧ Config.heightTable.get i ≤ 1000 := by decide

/-- The error of any target index and any twelve-bit height (R185). -/
theorem heightErr_range {p : Config.Params} (h : p.const = Config.sourceConstants) (i : Fin Config.hSteps)
    (hgt : BitVec 12) : -4095 ≤ heightErr p i hgt.toNat ∧ heightErr p i hgt.toNat ≤ 1000 := by
  have ⟨hlo, hhi⟩ := heightTable_range i
  have hlt : hgt.toNat < 4096 := hgt.isLt
  have heq : heightErr p i hgt.toNat = Config.heightTable.get i - hgt.toNat := by rw [heightErr, h]; rfl
  rw [heq]
  omega

theorem cycleHeightErr_range (s : State) : -4095 ≤ cycleHeightErr params s ∧ cycleHeightErr params s ≤ 1000 :=
  heightErr_range rfl s.tgtH s.chH

/-- An operation keeps `PIDH.LAST` or stores a height error of its own cycle there (R187). -/
theorem exec_pidH_last {i : Instr} {s t : State} (h : exec i s = .next t) :
    t.pidH.last = s.pidH.last ∨ ∃ u, t.pidH.last = cycleHeightErr params u := by
  by_cases hi : i = .ctlRun
  · subst hi
    rw [← Host.Outcome.next.inj h]
    rcases ctlRunWith_cases params s with ⟨_, e⟩ | ⟨_, _, e⟩ | ⟨_, _, _, e⟩ | ⟨_, _, _, _, e⟩ | ⟨_, _, _, _, _, e⟩ |
      ⟨_, _, _, _, _, e⟩ <;> rw [e]
    · exact .inl rfl
    · exact .inl rfl
    · exact .inl rfl
    all_goals exact .inr ⟨noteTicks params (emit .controlRun s), rfl⟩
  · exact .inl (exec_writesOnly h .pidHLast (not_mem_writes_of_ne_ctlRun hi _ (by simp)))

theorem exec_keeps_heightErrorLegal {i : Instr} {s t : State} (h : exec i s = .next t) (hs : HeightErrorLegal s) :
    HeightErrorLegal t := by
  unfold HeightErrorLegal
  rcases exec_pidH_last h with hlast | ⟨u, hlast⟩ <;> rw [hlast]
  · exact hs
  · exact cycleHeightErr_range u

/-- Settles O42: `CTL_RUN` alone writes `PIDH.LAST`, and what it writes is an error of the height axis. -/
theorem heightErrorStaysInRange : Obligations.HeightErrorStaysInRange := by
  intro s t hs h
  refine step_keeps (fun {s t} hst hs => ?_) ⟨by decide, by decide⟩ exec_keeps_heightErrorLegal h hs
  have hlast : t.pidH.last = s.pidH.last := hst .pidHLast
  unfold HeightErrorLegal
  rw [hlast]
  exact hs

/-! ### The halt records (R35, R257) -/

/-- A halted task's halt record is the same in both states. -/
def HaltLasts (task : Task) (s t : State) : Prop := halted task s = true → ∀ r ∈ haltRegs task, r.same s t

theorem halted_of_same {task : Task} {s t : State} (h : ∀ r ∈ haltRegs task, r.same s t) :
    halted task t = halted task s := by
  cases task with
  | sampler => exact h .fatalS (by simp [haltRegs])
  | control => exact h .fatalC (by simp [haltRegs])

theorem HaltLasts.trans {task : Task} {s t u : State} (h : HaltLasts task s t) (h' : HaltLasts task t u) :
    HaltLasts task s u := fun hs r hr =>
  Reg.same_trans (h hs r hr) (h' ((halted_of_same (h hs)).trans hs) r hr)

/-- An operation is no writer of a halted task's halt record, or it is that task's run, which is turned away (R253). -/
theorem exec_of_halted {task : Task} {s : State} (hs : halted task s = true) (i : Instr) :
    (∀ r ∈ haltRegs task, r ∉ writes i) ∨ exec i s = .next (turnAway .halted s) := by
  cases task with
  | sampler =>
    by_cases hi : ∃ v, i = .smpRun v
    · obtain ⟨v, rfl⟩ := hi
      exact .inr (congrArg Host.Outcome.next (if_pos hs))
    · exact .inl fun r hr => not_mem_writes_of_ne_smpRun (fun v hv => hi ⟨v, hv⟩) r
        (List.mem_cons_of_mem _ (List.mem_cons_of_mem _ hr))
  | control =>
    by_cases hi : i = .ctlRun
    · subst hi
      exact .inr (congrArg Host.Outcome.next (if_pos hs))
    · exact .inl fun r hr => not_mem_writes_of_ne_ctlRun hi r (List.mem_cons_of_mem _ hr)

theorem exec_haltLasts {task : Task} {i : Instr} {s t : State} (h : exec i s = .next t) : HaltLasts task s t := by
  intro hs r hr
  rcases exec_of_halted hs i with hframe | haway
  · exact exec_writesOnly h r (hframe r hr)
  · cases haway.symm.trans h
    exact sameRegs_turnAway _ _ r

/-- A halt record lasts through every step but a reset event (R257). -/
theorem step_haltLasts (task : Task) {s t : State} (hne : s.inputs.head? ≠ some .reset) (h : step s = .next t) :
    HaltLasts task s t :=
  step_relates (R := HaltLasts task) (fun hst _ r _ => hst r) HaltLasts.trans exec_haltLasts hne h

/-- Settles O53: each task's halt record lasts through every operation. -/
theorem fatalHaltsArePermanent : Obligations.FatalHaltsArePermanent := by
  refine fun s t hne h => ⟨fun hs => ?sampler, fun hs => ?control⟩
  case sampler =>
    have hlasts := step_haltLasts .sampler hne h hs
    exact ⟨(hlasts .fatalS (by simp [haltRegs])).trans hs, hlasts .fatalCauseS (by simp [haltRegs])⟩
  case control =>
    have hlasts := step_haltLasts .control hne h hs
    exact ⟨(hlasts .fatalC (by simp [haltRegs])).trans hs, hlasts .fatalCauseC (by simp [haltRegs])⟩

/-! ### Ownership (R41) -/

/-- Of the operation an agent presents, `ENV` only within its discipline, every written register is the agent's own. -/
theorem presented_writes_owned {x : Stimulus} {s : State} {w : Word} {i : Instr} (hk : keepsOwnership x = true)
    (hw : stimulusWord s x = some w) (hd : decode w = .ok i) : (writes i).all x.agent.owns = true := by
  have own {j : Instr} (hj : some (encode j) = some w) : i = j := by
    cases hj
    exact Except.ok.inj (hd.symm.trans (decode_encode j))
  cases x with
  | command w' q =>
    cases hw
    simp only [keepsOwnership, hd] at hk
    exact hk
  | sampler v q => rw [own hw]; cases s.samplerAt <;> rfl
  | control q => rw [own hw]; cases s.controlAt <;> rfl
  | phaseEdge b a => rw [own hw]; rfl
  | refPin => rw [own hw]; rfl
  | reset => cases hk

/-- In a ring of more than one slot the write index moves (R21, R111). -/
theorem ringNext_ne {n : Nat} (hn : 1 < n) (r : RingBuf n) : ringNext r ≠ r.wr := by
  intro h
  have hval : (r.wr.val + 1) % n = r.wr.val := congrArg Fin.val h
  have hlt := r.wr.isLt
  by_cases hlast : r.wr.val + 1 = n
  · rw [hlast, Nat.mod_self] at hval; omega
  · rw [Nat.mod_eq_of_lt (by omega)] at hval; omega

/-- Settles O58: the operation an agent presents writes within the agent's registers, and a direct `RF_WRITE 0` moves the
Sampler's write index. -/
theorem agentsWriteOnlyTheirOwnRegisters : Obligations.AgentsWriteOnlyTheirOwnRegisters := by
  refine ⟨fun x rest s t r hx hk h hr => ?disciplined, fun v q rest s hx => ?direct⟩
  case disciplined =>
    rcases step_registers h with ⟨hreset, _⟩ | hst | ⟨x', _, w, i, u, v, hx', hw, hd, hsu, he, hvt⟩
    · rw [hx] at hreset
      cases hreset
      cases hk
    · exact hst r
    · obtain ⟨rfl, rfl⟩ := List.cons.inj (hx.symm.trans hx')
      have howned := presented_writes_owned hk hw hd
      have hnot : r ∉ writes i := fun hmem => by
        have := List.all_eq_true.mp howned r hmem
        rw [hr] at this
        cases this
      exact Reg.same_trans (hsu r) (Reg.same_trans (exec_writesOnly he r hnot) (hvt r))
  case direct =>
    have hk : keepsOwnership (.command (encode (.rfWrite .height v)) q) = false := by
      simp only [keepsOwnership, decode_encode]
      rfl
    refine ⟨hk, rfl, _, step_of_encode hx rfl rfl, rfl, fun hsame => ?_⟩
    exact ringNext_ne (by decide) s.rf0 hsame

/-! ### The reset state (R38, R281) -/

/-- Every slot of a ring holds `PREFILL` after reset (R20). -/
theorem ringReset_slot (prefill : RawSample) (n : Nat) (hn : 0 < n) (j : Nat) (hj : j < n) :
    (RingBuf.reset prefill n hn).slot[j] = prefill := Vector.getElem_replicate hj

/-- Settles O11: the slots hold the default `PREFILL`, and every other register is a field of the reset state. -/
theorem resetStateHoldsTheListedValues : Obligations.ResetStateHoldsTheListedValues := by
  refine ⟨fun j hj => ringReset_slot _ _ _ j hj, rfl, fun j hj => ringReset_slot _ _ _ j hj, rfl, ?_⟩
  decide

end Sys2Proof.Machine
end

section
/-! PROOFS. What `RF_WRITE` stores and what the reads leave alone (R60, R65, R111), and what a fair schedule does with a
Sampler that waits for its turn (R76, R237). -/

namespace Sys2Proof.Machine

/-! ### The stored words (R60, R66) -/

/-- The storage space of a ring's slots (R60). -/
def ringSpace : Ring → Space
  | .height => .rf0
  | .pot => .rf1

/-- The write index of the selected ring (R21). -/
def writeIndexOf (i : Ring) (s : State) : Nat :=
  match i with
  | .height => s.rf0.wr.val
  | .pot => s.rf1.wr.val

/-- A write into a ring replaces the word at its write index and no other (R111). -/
theorem ringPush_slot_getElem? {n : Nat} (r : RingBuf n) (v : RawSample) (j : Nat) :
    (ringPush r v).slot[j]? = if j = r.wr.val then some v else r.slot[j]? := by
  have hset : (ringPush r v).slot[j]? = if r.wr.val = j then (if r.wr.val < n then some v else none) else r.slot[j]? :=
    Vector.getElem?_setIfInBounds
  rw [hset, if_pos r.wr.isLt]
  exact if_congr eq_comm rfl rfl

/-- What is stored after a write into a ring: the sample at that ring's write index, and every other word as before. -/
theorem memRead_pushSample (p : Config.Params) (i : Ring) (v : RawSample) (s : State) (space : Space) (j : Nat) :
    memRead p (pushSample i v s) space j =
      if space = ringSpace i ∧ j = writeIndexOf i s then some (v.toNat : Int) else memRead p s space j := by
  have hword {n : Nat} (r : RingBuf n) : ((ringPush r v).slot[j]?.map fun w => (w.toNat : Int)) =
      if j = r.wr.val then some (v.toNat : Int) else r.slot[j]?.map fun w => (w.toNat : Int) := by
    rw [ringPush_slot_getElem?, apply_ite (Option.map _)]
    rfl
  cases i <;> cases space <;> simp [memRead, ringSpace, writeIndexOf, hword]

/-- An answer on the output ports stores nothing. -/
theorem memRead_answer (p : Config.Params) (st : Status) (v : Resp) (s : State) (space : Space) (j : Nat) :
    memRead p (answer st v s) space j = memRead p s space j := by
  cases space <;> rfl

/-- `RF_WRITE` stores the sample at its ring's write index and changes no other stored word (R60, R66, R111). -/
theorem exec_rfWrite_memRead (p : Config.Params) {i : Ring} {v : RawSample} {s t : State}
    (h : exec (.rfWrite i v) s = .next t) :
    memRead p t (ringSpace i) (writeIndexOf i s) = some (v.toNat : Int) ∧
    ∀ (space : Space) (j : Nat), (space ≠ ringSpace i ∨ j ≠ writeIndexOf i s) →
      memRead p t space j = memRead p s space j := by
  have ht : ∀ space j, memRead p t space j =
      if space = ringSpace i ∧ j = writeIndexOf i s then some (v.toNat : Int) else memRead p s space j := by
    intro space j
    rw [← Host.Outcome.next.inj h]
    exact (memRead_answer ..).trans (memRead_pushSample ..)
  refine ⟨(ht _ _).trans (if_pos ⟨rfl, rfl⟩), fun space j hne => (ht _ _).trans (if_neg ?_)⟩
  rintro ⟨hspace, hj⟩
  exact hne.elim (absurd hspace) (absurd hj)

/-- Settles O15: the frame of a write into any ring, at each of the two. -/
theorem rfWriteChangesOneStoredWord : Obligations.RfWriteChangesOneStoredWord :=
  fun _ _ _ => ⟨exec_rfWrite_memRead params, exec_rfWrite_memRead params⟩

/-! ### The reads (R65) -/

/-- A read answers from registers alone: what the output ports show does not matter, so a second one answers the same. -/
theorem exec_read_answers {i : Instr} (hi : (∃ r k, i = .rfRead r k) ∨ (∃ r, i = .rfMean r) ∨ i = .qdYaw) (s : State) :
    ∃ st v, exec i s = .next (answer st v s) ∧ exec i (answer st v s) = .next (answer st v s) := by
  rcases hi with ⟨r, k, rfl⟩ | ⟨r, rfl⟩ | rfl
  case inl =>
    by_cases hk : r.capacity ≤ k.toNat
    · exact ⟨.illegalOperand, 0#16, if_pos hk, if_pos hk⟩
    · refine ⟨.ok, zext16 (elementOf r k.toNat s).toNat, if_neg hk, (if_neg hk).trans ?_⟩
      cases r <;> rfl
  case inr.inl =>
    refine ⟨.ok, zext16 (meanOf r s), rfl, ?_⟩
    cases r <;> rfl
  case inr.inr => exact ⟨.ok, sext16 (currentYaw params s), rfl, rfl⟩

/-- Settles O21: a read changes the output ports only, and answers from what it left; no operation writes an input port. -/
theorem readsChangeNothingAndRepeat : Obligations.ReadsChangeNothingAndRepeat := by
  refine ⟨fun i s t hi h => ?reads, fun i s t h => ?ports⟩
  case reads =>
    obtain ⟨st, v, hfirst, hagain⟩ := exec_read_answers hi s
    obtain rfl : answer st v s = t := Host.Outcome.next.inj (hfirst.symm.trans h)
    exact ⟨rfl, hagain⟩
  case ports =>
    obtain ⟨_, _, _, _, hports⟩ := exec_agents h
    exact hports

/-! ### A stimulus is always served (R10, 93 part 1) -/

/-- Performing a word answers a next state, whatever the word (93 part 1). -/
theorem performBy_exec_eq_next (s : State) : ∃ t, performBy exec s = .next t := by
  cases hd : decode s.cmd with
  | ok i => rw [performBy_of_decode_ok hd]; exact exec_eq_next i s
  | error e => exact ⟨_, performBy_of_decode_error hd⟩

/-- Every stimulus is served with a next state (93 part 1). -/
theorem serveBy_exec_eq_next (p : Config.Params) (x : Stimulus) (s : State) : ∃ t, serveBy p exec x s = .next t := by
  unfold serveBy
  split
  · exact ⟨_, rfl⟩
  · obtain ⟨t, ht⟩ := performBy_exec_eq_next (latch ‹Word› (stimulusPorts s x) s)
    exact ⟨advanceTask x t, by rw [ht]⟩

/-- Feeding a stimulus is the step that takes it. -/
theorem step_feed (x : Stimulus) (s : State) : step { s with inputs := [x] } = .next (feed x s) := by
  obtain ⟨t, ht⟩ := serveBy_exec_eq_next params x { s with inputs := [] }
  have hstep : step { s with inputs := [x] } = .next t := ht
  simp only [feed, hstep]

/-! ### Turns that pass a waiting Sampler by (R237, R254) -/

theorem SamePhase.trans {s t u : State} (h : SamePhase s t) (h' : SamePhase t u) : SamePhase s u := by
  obtain ⟨hruns, hhs, hfs, hfc⟩ := h
  obtain ⟨hruns', hhs', hfs', hfc'⟩ := h'
  exact ⟨hruns'.trans hruns, hhs'.trans hhs, hfs'.trans hfs, hfc'.trans hfc⟩

theorem samePhase_turnAway (reason : Status) (s : State) : SamePhase s (turnAway reason s) := ⟨rfl, rfl, rfl, rfl⟩

theorem samePhase_presented (x : Stimulus) (rest : List Stimulus) (w : Word) (s : State) :
    SamePhase s (presented x rest w s) := ⟨rfl, rfl, rfl, rfl⟩

theorem samePhase_advanceTask (x : Stimulus) (s : State) : SamePhase s (advanceTask x s) := by
  rw [advanceTask_eq]
  exact ⟨rfl, rfl, rfl, rfl⟩

/-- While the token is with the Sampler or waits for it, the Control Loop's program is turned away (R233, R234, R254). -/
theorem exec_controlOp_samePhase {stage : Stage} {s t : State} (hwfc : s.hs ≠ .wfc) (hctl : s.hs ≠ .ctl)
    (h : exec (controlOp stage) s = .next t) : SamePhase s t := by
  cases stage with
  | take =>
    rw [← Host.Outcome.next.inj h]
    rcases takeGate_cases .control .wfc .ctl s with ⟨_, e⟩ | ⟨_, hhs, _⟩ | ⟨_, _, e⟩
    · rw [e]; exact samePhase_turnAway _ _
    · exact absurd hhs hwfc
    · rw [e]; exact samePhase_turnAway _ _
  | run =>
    rcases ctlRun_phase h with ⟨_, _, hsame⟩ | ⟨_, hhs, _⟩
    · exact hsame
    · exact absurd hhs hctl
  | give =>
    rw [← Host.Outcome.next.inj h]
    rcases giveGate_cases .control .ctl .wfs s with ⟨_, e⟩ | ⟨_, hhs, _⟩ | ⟨_, _, e⟩
    · rw [e]; exact samePhase_turnAway _ _
    · exact absurd hhs hctl
    · rw [e]; exact samePhase_turnAway _ _

/-- The operation of a stimulus that is no Sampler's turn is no task's, or is the Control Loop's own (R70, R236). -/
theorem op_of_not_sampler {x : Stimulus} {s : State} {w : Word} {i : Instr} (hprog : followsPrograms x = true)
    (hns : x.agent ≠ .sampler) (hw : stimulusWord s x = some w) (hd : decode w = .ok i) :
    isTaskOp i = false ∨ ∃ stage, i = controlOp stage := by
  have own {j : Instr} (hj : some (encode j) = some w) : i = j := by
    cases hj
    exact Except.ok.inj (hd.symm.trans (decode_encode j))
  cases x with
  | command w' q =>
    cases hw
    simp only [followsPrograms, hd] at hprog
    exact .inl (by simpa using hprog)
  | sampler v q => exact absurd rfl hns
  | control q => exact .inr ⟨s.controlAt, own hw⟩
  | phaseEdge b a => rw [own hw]; exact .inl rfl
  | refPin => rw [own hw]; exact .inl rfl
  | reset => cases hw

/-- Only the Sampler's own turn moves its place on. -/
theorem advanceTask_samplerAt {x : Stimulus} (hns : x.agent ≠ .sampler) (s : State) :
    (advanceTask x s).samplerAt = s.samplerAt := by
  cases x with
  | sampler v q => exact absurd rfl hns
  | control q => rw [advanceTask_control]
  | _ => rfl

/-- What is no Sampler's turn, no reset and no task operation from outside leaves the runs, the token, the halt bits and
the Sampler's place, while the token is with the Sampler or waits for it (R237, R260). -/
theorem feed_not_sampler {x : Stimulus} {s : State} (hprog : followsPrograms x = true) (hne : x ≠ .reset)
    (hns : x.agent ≠ .sampler) (hwfc : s.hs ≠ .wfc) (hctl : s.hs ≠ .ctl) :
    SamePhase s (feed x s) ∧ (feed x s).samplerAt = s.samplerAt := by
  have hin : ∀ {y rest}, [x] = y :: rest → y = x := fun h => (List.cons.inj h).1.symm
  rcases step_cases (step_feed x s) with ⟨hnil, _⟩ | ⟨_, hx, _⟩ | ⟨y, rest, w, i, u, hx, _, hw, hd, he, ht⟩ |
    ⟨y, rest, w, e, hx, _, _, _, ht⟩
  case inl => cases hnil
  case inr.inl => exact absurd (hin hx).symm hne
  case inr.inr.inl =>
    obtain rfl := hin hx
    have hexec : SamePhase (presented y rest w { s with inputs := [y] }) u := by
      rcases op_of_not_sampler hprog hns hw hd with hi | ⟨stage, rfl⟩
      · exact exec_samePhase hi he
      · exact exec_controlOp_samePhase hwfc hctl he
    obtain ⟨_, hplace, _⟩ := exec_agents he
    rw [ht]
    exact ⟨((samePhase_presented _ _ _ s).trans hexec).trans (samePhase_advanceTask _ _),
      (advanceTask_samplerAt hns u).trans hplace⟩
  case inr.inr.inr =>
    obtain rfl := hin hx
    rw [ht]
    exact ⟨((samePhase_presented _ _ _ s).trans (samePhase_turnAway _ _)).trans (samePhase_advanceTask _ _),
      advanceTask_samplerAt hns _⟩

/-! ### The Sampler's turn (R231, R160) -/

/-- The Sampler's turn performs its own next operation (R70, R165). -/
theorem feed_sampler (v : RawSample) (q : Ports) (s : State) :
    ∃ u, exec (samplerOp s.samplerAt v) (presented (.sampler v q) [] (encode (samplerOp s.samplerAt v)) s) = .next u ∧
      feed (.sampler v q) s = advanceTask (.sampler v q) u := by
  obtain ⟨u, hu⟩ := exec_eq_next (samplerOp s.samplerAt v)
    (presented (.sampler v q) [] (encode (samplerOp s.samplerAt v)) s)
  have hstep : step { s with inputs := [.sampler v q] } = .next (advanceTask (.sampler v q) u) :=
    step_of_encode rfl rfl hu
  exact ⟨u, hu, Host.Outcome.next.inj ((step_feed _ _).symm.trans hstep)⟩

/-- A Sampler that waits with `SampleReady` available takes it at its next turn (R231). -/
theorem feed_sampler_take {v : RawSample} {q : Ports} {s : State} (hhs : s.hs = .wfs) (hat : s.samplerAt = .take)
    (hf : s.fatalS = false) : (feed (.sampler v q) s).hs = .smp := by
  obtain ⟨u, hu, hfeed⟩ := feed_sampler v q s
  obtain ⟨_, hkept, _⟩ := samePhase_advanceTask (.sampler v q) u
  rw [hat] at hu
  rw [hfeed, hkept, ← Host.Outcome.next.inj hu]
  rcases takeGate_cases .sampler .wfs .smp (presented (.sampler v q) [] (encode (samplerOp .take v)) s) with
    ⟨hhalted, _⟩ | ⟨_, _, e⟩ | ⟨_, hheld, _⟩
  · cases hf.symm.trans hhalted
  · rw [e]; rfl
  · exact absurd hhs hheld

/-- A Sampler that holds the token before its `SMP_RUN` runs at its next turn, even if that run halts it (R160). -/
theorem feed_sampler_run {v : RawSample} {q : Ports} {s : State} (hhs : s.hs = .smp) (hat : s.samplerAt = .run)
    (hf : s.fatalS = false) : taskRuns (feed (.sampler v q) s).trace = taskRuns s.trace ++ [.sampler] := by
  obtain ⟨u, hu, hfeed⟩ := feed_sampler v q s
  obtain ⟨hkept, _⟩ := samePhase_advanceTask (.sampler v q) u
  rw [hat] at hu
  rw [hfeed, hkept]
  rcases smpRun_phase hu with ⟨_, hhalted | hheld, _⟩ | ⟨_, _, hruns, _⟩
  · cases hf.symm.trans hhalted
  · exact absurd hhs hheld
  · exact hruns

/-! ### Fair schedules (R76) -/

/-- The Sampler is not halted and stands at `stage` with the token at `token`, and the runs so far are `runs`. -/
structure SamplerWaits (token : Handoff) (stage : Stage) (runs : List Task) (s : State) : Prop where
  hs : s.hs = token
  place : s.samplerAt = stage
  running : s.fatalS = false
  runs : taskRuns s.trace = runs

theorem SamplerWaits.of_samePhase {token : Handoff} {stage : Stage} {runs : List Task} {s t : State}
    (h : SamplerWaits token stage runs s) (hsame : SamePhase s t) (hplace : t.samplerAt = s.samplerAt) :
    SamplerWaits token stage runs t := by
  obtain ⟨hruns, hhs, hf, _⟩ := hsame
  exact ⟨hhs.trans h.hs, hplace.trans h.place, hf.trans h.running, hruns.trans h.runs⟩

section
variable {adcReady : Nat → Bool} {schedule : Nat → Stimulus} {s : State} {token : Handoff} {stage : Stage}
  {runs : List Task}

/-- A waiting Sampler still waits after any number of steps that are not its own. -/
theorem runSchedule_samplerWaits (hprog : ∀ n, followsPrograms (schedule n) = true ∧ schedule n ≠ .reset)
    (hwfc : token ≠ .wfc) (hctl : token ≠ .ctl) (hs : SamplerWaits token stage runs s) (n : Nat)
    (hns : ∀ m < n, (schedule m).agent ≠ .sampler) : SamplerWaits token stage runs (runSchedule schedule s n) := by
  induction n with
  | zero => exact hs
  | succ n ih =>
    have hn := ih fun m hm => hns m (Nat.lt_succ_of_lt hm)
    obtain ⟨hfollows, hne⟩ := hprog n
    obtain ⟨hsame, hplace⟩ := feed_not_sampler hfollows hne (hns n n.lt_succ_self)
      (hn.hs.trans_ne hwfc) (hn.hs.trans_ne hctl)
    exact hn.of_samePhase hsame hplace

/-- Weak fairness gives a waiting Sampler its turn, if its next operation is enabled from some step on wherever it waits;
at its first turn it still waits. -/
theorem WeaklyFair.sampler_turn (hfair : WeaklyFair .sampler adcReady schedule s)
    (hprog : ∀ n, followsPrograms (schedule n) = true ∧ schedule n ≠ .reset) (hwfc : token ≠ .wfc) (hctl : token ≠ .ctl)
    (hs : SamplerWaits token stage runs s)
    (hen : ∃ n, ∀ m, n ≤ m → ∀ u, SamplerWaits token stage runs u → taskEnabled .sampler (adcReady m) u = true) :
    ∃ n v q, schedule n = .sampler v q ∧ SamplerWaits token stage runs (runSchedule schedule s n) := by
  have hturn : ∃ m, (schedule m).agent = .sampler := by
    by_contra hnone
    have hns (m : Nat) : (schedule m).agent ≠ .sampler := fun h => hnone ⟨m, h⟩
    obtain ⟨n, hn⟩ := hen
    obtain ⟨m, _, hm⟩ := hfair n fun m hm =>
      hn m hm _ (runSchedule_samplerWaits hprog hwfc hctl hs m fun k _ => hns k)
    exact hns m hm
  have hfirst := runSchedule_samplerWaits hprog hwfc hctl hs (Nat.find hturn) fun _ => Nat.find_min hturn
  have hagent := Nat.find_spec hturn
  cases hx : schedule (Nat.find hturn) with
  | sampler v q => exact ⟨Nat.find hturn, v, q, hx, hfirst⟩
  | _ => rw [hx] at hagent; cases hagent

end

/-- Settles O60: a waiting Sampler stays enabled until its turn, and its turn takes the gate or performs the run. -/
theorem fairSamplerTakesAnAvailableGate : Obligations.FairSamplerTakesAnAvailableGate := by
  intro adcReady schedule s hfair hprog hf
  refine ⟨fun hhs hat => ?take, fun ⟨n₀, hadc⟩ hhs hat => ?run⟩
  case take =>
    obtain ⟨n, v, q, hx, hw⟩ := hfair.sampler_turn hprog (token := .wfs) (by decide) (by decide) ⟨hhs, hat, hf, rfl⟩
      ⟨0, fun _ _ u hu => by simp [taskEnabled, hu.hs, hu.place, hu.running]⟩
    refine ⟨n + 1, ?_⟩
    rw [runSchedule, hx]
    exact feed_sampler_take hw.hs hw.place hw.running
  case run =>
    obtain ⟨n, v, q, hx, hw⟩ := hfair.sampler_turn hprog (token := .smp) (by decide) (by decide) ⟨hhs, hat, hf, rfl⟩
      ⟨n₀, fun m hm u hu => by simp [taskEnabled, hu.hs, hu.place, hu.running, hadc m hm]⟩
    refine ⟨n + 1, ?_⟩
    rw [runSchedule, hx, feed_sampler_run hw.hs hw.place hw.running, hw.runs]

end Sys2Proof.Machine
end

section
/-! PROOFS. The decoder and the opcode map agree word by word (R86 to R91, R251). -/

namespace Sys2Proof

/-! ### A word that decodes is its operation's own (R86, R90) -/

/-- A one-bit pair is read back from its two operands (R88). -/
theorem extractLsb'_append_self (ba : BitVec 2) : ba.extractLsb' 1 1 ++ ba.extractLsb' 0 1 = ba := by
  revert ba; decide

/-- If format `SI` accepts the fields, the operation it reads has them as its word (R87). -/
theorem encode_of_formatSI {n : Nat} (hn : n ≤ 16) {mk : Ring → BitVec n → Instr} {u f : BitVec 4} {sel : BitVec 8}
    {imm : BitVec 16} {j : Instr} (hmk : ∀ i x, encode (mk i x) = packFields u f i.sel (x.setWidth 16))
    (h : formatSI n mk sel imm = .ok j) : encode j = packFields u f sel imm := by
  obtain ⟨i, x, rfl, rfl, rfl⟩ := formatSI_ok hn h
  exact hmk i x

/-- If format `I` accepts the fields, the operation it reads has them as its word (R87). -/
theorem encode_of_formatI {n : Nat} (hn : n ≤ 16) {mk : BitVec n → Instr} {u f : BitVec 4} {sel : BitVec 8}
    {imm : BitVec 16} {j : Instr} (hmk : ∀ x, encode (mk x) = packFields u f 0#8 (x.setWidth 16))
    (h : formatI n mk sel imm = .ok j) : encode j = packFields u f sel imm := by
  obtain ⟨x, rfl, rfl, rfl⟩ := formatI_ok hn h
  exact hmk x

/-- If format `N` accepts the fields, the operation it reads has them as its word (R87). -/
theorem encode_of_formatN {i j : Instr} {u f : BitVec 4} {sel : BitVec 8} {imm : BitVec 16}
    (hi : encode i = packFields u f 0#8 0#16) (h : formatN i sel imm = .ok j) : encode j = packFields u f sel imm := by
  obtain ⟨rfl, rfl, rfl⟩ := formatN_ok h
  exact hi

theorem encode_qdEdge_pair (ba : BitVec 2) :
    encode (.qdEdge (ba.extractLsb' 1 1) (ba.extractLsb' 0 1)) = packFields 2#4 0#4 0#8 (ba.setWidth 16) := by
  rw [encode, extractLsb'_append_self]

theorem encode_rfMean_noOperand (i : Ring) (x : BitVec 0) :
    encode (.rfMean i) = packFields 1#4 2#4 i.sel (x.setWidth 16) := by
  rw [BitVec.of_length_zero (x := x)]
  rfl

theorem eq_ofNat_of_toNat_eq {n k : Nat} {x : BitVec n} (h : x.toNat = k) : x = BitVec.ofNat n k := by
  rw [← h, BitVec.ofNat_toNat, BitVec.setWidth_eq]

/-- The fields of a word that decodes are those of its operation's word (R87, R89). -/
theorem encode_of_decodeFields {u f : BitVec 4} {sel : BitVec 8} {imm : BitVec 16} {j : Instr}
    (h : decodeFields u f sel imm = .ok j) : encode j = packFields u f sel imm := by
  unfold decodeFields at h
  split at h
  case h_15 => split at h <;> cases h
  all_goals
    rename_i hu hf
    obtain rfl := eq_ofNat_of_toNat_eq hu
    obtain rfl := eq_ofNat_of_toNat_eq hf
  case h_1 | h_2 => exact encode_of_formatSI (by decide) (fun _ _ => rfl) h
  case h_3 => exact encode_of_formatSI (by decide) encode_rfMean_noOperand h
  case h_4 => exact encode_of_formatI (by decide) encode_qdEdge_pair h
  case h_7 | h_13 | h_14 => exact encode_of_formatI (by decide) (fun _ => rfl) h
  all_goals exact encode_of_formatN rfl h

/-- A word that decodes is exactly its operation's word (R86 to R90). -/
theorem encode_of_decode {w : Word} {i : Instr} (h : decode w = .ok i) : encode i = w :=
  (encode_of_decodeFields h).trans (packFields_fields w)

/-! ### The opcode map selects exactly the words that decode (R89) -/

/-- The bits of an operand field that a row's mask tests are those above the operand (R88, R89). -/
theorem eq_setWidth_of_and_high {n : Nat} {imm : BitVec 16} (h : imm &&& BitVec.allOnes 16 <<< n = 0#16) :
    imm = (imm.setWidth n).setWidth 16 := by
  apply BitVec.eq_of_getElem_eq
  intro j hj
  have hbit : (imm &&& BitVec.allOnes 16 <<< n)[j] = false := by rw [h]; simp
  by_cases hn : j < n
  · simp [hn, BitVec.getLsbD_eq_getElem hj]
  · simp only [BitVec.getElem_and, BitVec.getElem_shiftLeft, BitVec.getElem_allOnes, hn, decide_false, Bool.not_false,
      Bool.and_true] at hbit
    simpa [hn] using hbit

/-- `SEL` of a format `SI` word has no bit but the ring's (R86). -/
theorem eq_sel_of_and_high {sel : BitVec 8} (h : sel &&& 0xFE#8 = 0#8) : ∃ i : Ring, sel = i.sel := by
  have hcases : ∀ sel : BitVec 8, sel &&& 0xFE#8 = 0#8 → sel = 0#8 ∨ sel = 1#8 := by decide
  rcases hcases sel h with rfl | rfl
  · exact ⟨.height, rfl⟩
  · exact ⟨.pot, rfl⟩

/-- A row whose mask has `UNIT` and `FUNC` whole fixes these two and leaves the rest to the mask (R89). -/
theorem fields_of_selected {w bits mask : Word} {u f : BitVec 4} {selMask : BitVec 8} {immMask : BitVec 16}
    (hbits : bits = packFields u f 0#8 0#16) (hmask : mask = packFields 0xF#4 0xF#4 selMask immMask)
    (h : w &&& mask = bits) :
    ∃ sel imm, w = packFields u f sel imm ∧ sel &&& selMask = 0#8 ∧ imm &&& immMask = 0#16 := by
  rw [hbits, hmask, ← packFields_fields w, packFields_and, packFields_inj] at h
  obtain ⟨hu, hf, hsel, himm⟩ := h
  refine ⟨selField w, immField w, ?_, hsel, himm⟩
  rw [← hu, ← hf, show (0xF#4) = BitVec.allOnes 4 from rfl, BitVec.and_allOnes, BitVec.and_allOnes, packFields_fields]

section
variable {row : OpcodeRow} {w : Word} {n : Nat} {u f : BitVec 4}

/-- A word that a row of format `SI` selects is a word of the row's operation (R87, R89). -/
theorem exists_encode_of_selectedSI (mk : Ring → BitVec n → Instr)
    (hmk : ∀ i x, encode (mk i x) = packFields u f i.sel (x.setWidth 16))
    (hname : ∀ i x, (mk i x).mnemonic = row.mnemonic) (hbits : row.bits = packFields u f 0#8 0#16)
    (hmask : row.mask = packFields 0xF#4 0xF#4 0xFE#8 (BitVec.allOnes 16 <<< n)) (h : w &&& row.mask = row.bits) :
    ∃ i, encode i = w ∧ i.mnemonic = row.mnemonic := by
  obtain ⟨sel, imm, rfl, hsel, himm⟩ := fields_of_selected hbits hmask h
  obtain ⟨i, rfl⟩ := eq_sel_of_and_high hsel
  exact ⟨mk i (imm.setWidth n), by rw [hmk, ← eq_setWidth_of_and_high himm], hname _ _⟩

/-- A word that a row of format `I` selects is a word of the row's operation (R87, R89). -/
theorem exists_encode_of_selectedI (mk : BitVec n → Instr)
    (hmk : ∀ x, encode (mk x) = packFields u f 0#8 (x.setWidth 16))
    (hname : ∀ x, (mk x).mnemonic = row.mnemonic) (hbits : row.bits = packFields u f 0#8 0#16)
    (hmask : row.mask = packFields 0xF#4 0xF#4 0xFF#8 (BitVec.allOnes 16 <<< n)) (h : w &&& row.mask = row.bits) :
    ∃ i, encode i = w ∧ i.mnemonic = row.mnemonic := by
  obtain ⟨sel, imm, rfl, hsel, himm⟩ := fields_of_selected hbits hmask h
  obtain rfl : sel = 0#8 := BitVec.and_allOnes.symm.trans hsel
  exact ⟨mk (imm.setWidth n), by rw [hmk, ← eq_setWidth_of_and_high himm], hname _⟩

/-- The only word that a row of format `N` selects is its operation's (R87, R89). -/
theorem exists_encode_of_selectedN (i : Instr) (hname : i.mnemonic = row.mnemonic) (hbits : encode i = row.bits)
    (hmask : row.mask = BitVec.allOnes 32) (h : w &&& row.mask = row.bits) :
    ∃ i, encode i = w ∧ i.mnemonic = row.mnemonic := by
  rw [hmask, BitVec.and_allOnes] at h
  exact ⟨i, hbits.trans h.symm, hname⟩

end

/-- A word that a row selects is the word of an operation with that row's mnemonic (R89). -/
theorem exists_encode_of_selected {w : Word} {row : OpcodeRow} (hrow : row ∈ opcodeMap)
    (h : w &&& row.mask = row.bits) : ∃ i, encode i = w ∧ i.mnemonic = row.mnemonic := by
  simp only [opcodeMap, List.mem_cons, List.not_mem_nil, or_false] at hrow
  rcases hrow with rfl | rfl | rfl | rfl | rfl | rfl | rfl | rfl | rfl | rfl | rfl | rfl | rfl | rfl
  · exact exists_encode_of_selectedSI .rfWrite (fun _ _ => rfl) (fun _ _ => rfl) (by decide) (by decide) h
  · exact exists_encode_of_selectedSI .rfRead (fun _ _ => rfl) (fun _ _ => rfl) (by decide) (by decide) h
  · exact exists_encode_of_selectedSI _ encode_rfMean_noOperand (fun _ _ => rfl) (by decide) (by decide) h
  · exact exists_encode_of_selectedI _ encode_qdEdge_pair (fun _ => rfl) (by decide) (by decide) h
  · exact exists_encode_of_selectedN .qdRef rfl (by decide) (by decide) h
  · exact exists_encode_of_selectedN .qdYaw rfl (by decide) (by decide) h
  · exact exists_encode_of_selectedI .smpRun (fun _ => rfl) (fun _ => rfl) (by decide) (by decide) h
  · exact exists_encode_of_selectedN .ctlRun rfl (by decide) (by decide) h
  · exact exists_encode_of_selectedN .hsTakeS rfl (by decide) (by decide) h
  · exact exists_encode_of_selectedN .hsGiveC rfl (by decide) (by decide) h
  · exact exists_encode_of_selectedN .hsTakeC rfl (by decide) (by decide) h
  · exact exists_encode_of_selectedN .hsGiveS rfl (by decide) (by decide) h
  · exact exists_encode_of_selectedI .setTgtH (fun _ => rfl) (fun _ => rfl) (by decide) (by decide) h
  · exact exists_encode_of_selectedI .setTgtY (fun _ => rfl) (fun _ => rfl) (by decide) (by decide) h

/-- Every operation's mnemonic is a row's, and that row selects the operation's word (R89). -/
theorem exists_row_of_encode (i : Instr) : ∃ row ∈ opcodeMap, encode i &&& row.mask = row.bits := by
  have hrow : ∃ row ∈ opcodeMap, row.mnemonic = i.mnemonic := by
    cases i <;> simp [opcodeMap, Instr.mnemonic]
  have hselects : Laws.EncodesIntoItsRow.Statement i := by
    cases i with
    | rfWrite i v => exact Laws.EncodesIntoItsRow.rfWrite i v
    | rfRead i k => exact Laws.EncodesIntoItsRow.rfRead i k
    | rfMean i => exact Laws.EncodesIntoItsRow.rfMean i
    | qdEdge b a => exact Laws.EncodesIntoItsRow.qdEdge b a
    | qdRef => exact Laws.EncodesIntoItsRow.qdRef
    | qdYaw => exact Laws.EncodesIntoItsRow.qdYaw
    | smpRun r => exact Laws.EncodesIntoItsRow.smpRun r
    | ctlRun => exact Laws.EncodesIntoItsRow.ctlRun
    | hsTakeS => exact Laws.EncodesIntoItsRow.hsTakeS
    | hsGiveC => exact Laws.EncodesIntoItsRow.hsGiveC
    | hsTakeC => exact Laws.EncodesIntoItsRow.hsTakeC
    | hsGiveS => exact Laws.EncodesIntoItsRow.hsGiveS
    | setTgtH x => exact Laws.EncodesIntoItsRow.setTgtH x
    | setTgtY y => exact Laws.EncodesIntoItsRow.setTgtY y
  obtain ⟨row, hmem, hname⟩ := hrow
  refine ⟨row, hmem, eq_of_beq ?_⟩
  exact (hselects row hmem).trans (decide_eq_true hname)

/-- No two rows have the same mnemonic (R89). -/
theorem opcodeMap_mnemonic_injective :
    ∀ row ∈ opcodeMap, ∀ row' ∈ opcodeMap, row.mnemonic = row'.mnemonic → row = row' := by decide

/-- A word that a row selects decodes to an operation with that row's mnemonic (R89). -/
theorem decode_of_selected {w : Word} {row : OpcodeRow} (hrow : row ∈ opcodeMap) (h : w &&& row.mask = row.bits) :
    ∃ i, decode w = .ok i ∧ i.mnemonic = row.mnemonic := by
  obtain ⟨i, rfl, hname⟩ := exists_encode_of_selected hrow h
  exact ⟨i, decode_encode i, hname⟩

/-- A word that no row selects does not decode (R90). -/
theorem decode_of_unlisted {w : Word} (h : ∀ row ∈ opcodeMap, w &&& row.mask ≠ row.bits) :
    ∃ e, decode w = .error e := by
  cases hd : decode w with
  | error e => exact ⟨e, rfl⟩
  | ok i =>
    obtain ⟨row, hmem, hsel⟩ := exists_row_of_encode i
    rw [encode_of_decode hd] at hsel
    exact absurd hsel (h row hmem)

end Sys2Proof

namespace Sys2Proof.Machine

/-- Settles O1: per format, the fields packed by the encoder are read back by the decoder. -/
theorem encodedOperationsDecodeBack : Obligations.EncodedOperationsDecodeBack := decode_encode

/-- Settles O2: per format, the fields the decoder accepts are those the encoder packs. -/
theorem decodedWordsEncodeBack : Obligations.DecodedWordsEncodeBack := fun _ _ => encode_of_decode

/-- Settles O3: a selected word is its row's operation's word, so two rows that select it have one mnemonic. -/
theorem opcodeMapSelectsTheDecodedOperation : Obligations.OpcodeMapSelectsTheDecodedOperation := by
  refine fun w => ⟨fun row hrow h => decode_of_selected hrow h, fun row hrow row' hrow' h h' => ?unique⟩
  obtain ⟨i, hd, hname⟩ := decode_of_selected hrow h
  obtain ⟨i', hd', hname'⟩ := decode_of_selected hrow' h'
  obtain rfl : i = i' := Except.ok.inj (hd.symm.trans hd')
  exact opcodeMap_mnemonic_injective row hrow row' hrow' (hname.symm.trans hname')

/-- A step on a stimulus that presents a word which does not decode (R90, R251). -/
theorem step_of_decode_error {s : State} {x : Stimulus} {rest : List Stimulus} {w : Word} {e : DecodeError}
    (hx : s.inputs = x :: rest) (hw : stimulusWord s x = some w) (hd : decode w = .error e) :
    step s = .next (advanceTask x (turnAway .illegalCmd (presented x rest w s))) := by
  have hw' : stimulusWord { s with inputs := rest } x = some w := (stimulusWord_inputs s rest x).trans hw
  have hperf : performBy exec (presented x rest w s) = .next (turnAway .illegalCmd (presented x rest w s)) :=
    performBy_of_decode_error hd
  unfold step stepBy serveBy
  rw [hx]
  simp only [hw', stimulusPorts_inputs]
  rw [show latch w (stimulusPorts s x) { s with inputs := rest } = presented x rest w s from rfl, hperf]

/-- Settles O4: a word that no row selects does not decode, and a presented word is no task's turn. -/
theorem unlistedWordIsIllegalCommand : Obligations.UnlistedWordIsIllegalCommand := by
  intro w q rest s hw hx
  obtain ⟨e, hd⟩ := decode_of_unlisted hw
  exact step_of_decode_error hx rfl hd

/-- Settles O6: each word is the encoding of its operation. -/
theorem writtenOutWordsDecode : Obligations.WrittenOutWordsDecode :=
  ⟨decode_encode (.rfWrite .height 2000#12), decode_encode (.rfRead .pot 9#4), decode_encode (.qdEdge 1#1 0#1),
    decode_encode (.setTgtY 23#5)⟩

end Sys2Proof.Machine
end

section
/-! PROOFS. What an operation answers on the output ports (R91, R96, R252), what a turn of the phase pair counts (R83,
R95), and that every published value is in its channel's range (R98, R201). -/

namespace Sys2Proof.Machine

/-! ### Answers (R91, R96, R252) -/

/-- The state answers with no value, and not as an operand out of range (R96). -/
structure AnswersNoValue (t : State) : Prop where
  resp : t.resp = 0#16
  status : t.status ≠ .illegalOperand

theorem answersNoValue_respond (s : State) : AnswersNoValue (respond 0#16 s) := ⟨rfl, nofun⟩

theorem answersNoValue_turnAway {reason : Status} (h : reason ≠ .illegalOperand) (s : State) :
    AnswersNoValue (turnAway reason s) := ⟨rfl, h⟩

theorem answersNoValue_raiseFatal (task : Task) (c : Cause) (ch : Option Channel) (s : State) :
    AnswersNoValue (raiseFatal task c ch s) :=
  ⟨raiseFatal_resp .., by rw [raiseFatal_status]; nofun⟩

theorem answersNoValue_takeGate (task : Task) (src dst : Handoff) (s : State) :
    AnswersNoValue (takeGate task src dst s) := by
  rcases takeGate_cases task src dst s with ⟨_, e⟩ | ⟨_, _, e⟩ | ⟨_, _, e⟩ <;> rw [e]
  · exact answersNoValue_turnAway (by decide) _
  · exact answersNoValue_respond _
  · exact answersNoValue_turnAway (by decide) _

theorem answersNoValue_giveGate (task : Task) (src dst : Handoff) (s : State) :
    AnswersNoValue (giveGate task src dst s) := by
  rcases giveGate_cases task src dst s with ⟨_, e⟩ | ⟨_, _, e⟩ | ⟨_, _, e⟩ <;> rw [e]
  · exact answersNoValue_turnAway (by decide) _
  · exact answersNoValue_respond _
  · exact answersNoValue_turnAway (by decide) _

theorem answersNoValue_smpRunWith (p : Config.Params) (v : RawSample) (s : State) :
    AnswersNoValue (smpRunWith p v s) := by
  rcases smpRunWith_cases p v s with ⟨_, e⟩ | ⟨_, _, e⟩ | ⟨_, _, _, e⟩ | ⟨_, _, _, _, e⟩ | ⟨_, _, _, _, e⟩ <;> rw [e]
  · exact answersNoValue_turnAway (by decide) _
  · exact answersNoValue_turnAway (by decide) _
  · exact answersNoValue_raiseFatal _ _ _ _
  · exact answersNoValue_raiseFatal _ _ _ _
  · exact answersNoValue_respond _

theorem answersNoValue_ctlRunWith (p : Config.Params) (s : State) : AnswersNoValue (ctlRunWith p s) := by
  rcases ctlRunWith_cases p s with ⟨_, e⟩ | ⟨_, _, e⟩ | ⟨_, _, _, e⟩ | ⟨_, _, _, _, e⟩ | ⟨_, _, _, _, _, e⟩ |
    ⟨_, _, _, _, _, e⟩ <;> rw [e]
  · exact answersNoValue_turnAway (by decide) _
  · exact answersNoValue_turnAway (by decide) _
  · exact answersNoValue_raiseFatal _ _ _ _
  · exact answersNoValue_raiseFatal _ _ _ _
  · exact answersNoValue_raiseFatal _ _ _ _
  · exact answersNoValue_respond _

/-- An operand out of its range is refused (R91, R252). -/
theorem exec_of_not_wellFormed {i : Instr} (hi : i.wellFormed = false) (s : State) :
    exec i s = .next (turnAway .illegalOperand s) := by
  cases i with
  | rfRead r k => exact if_pos (Nat.le_of_not_lt (of_decide_eq_false hi))
  | setTgtH x => exact dif_neg (of_decide_eq_false hi)
  | setTgtY y => exact dif_neg (of_decide_eq_false hi)
  | _ => cases hi

/-- With its operands in range, an operation is a read that answers OK, or it answers no value (R96). -/
theorem exec_answer_of_wellFormed {i : Instr} {s t : State} (hi : i.wellFormed = true) (h : exec i s = .next t) :
    (((∃ r k, i = .rfRead r k) ∨ (∃ r, i = .rfMean r) ∨ i = .qdYaw) ∧ t.status = .ok) ∨ AnswersNoValue t := by
  cases i with
  | rfRead r k =>
    obtain rfl := Host.Outcome.next.inj ((if_neg (Nat.not_le_of_lt (of_decide_eq_true hi))).symm.trans h)
    exact .inl ⟨.inl ⟨r, k, rfl⟩, rfl⟩
  | rfMean r => cases h; exact .inl ⟨.inr (.inl ⟨r, rfl⟩), rfl⟩
  | qdYaw => cases h; exact .inl ⟨.inr (.inr rfl), rfl⟩
  | rfWrite r v => cases h; exact .inr (answersNoValue_respond _)
  | qdEdge b a => cases h; exact .inr (answersNoValue_respond _)
  | qdRef => cases h; exact .inr (answersNoValue_respond _)
  | smpRun v => cases h; exact .inr (answersNoValue_smpRunWith _ _ _)
  | ctlRun => cases h; exact .inr (answersNoValue_ctlRunWith _ _)
  | hsTakeS => cases h; exact .inr (answersNoValue_takeGate _ _ _ _)
  | hsGiveC => cases h; exact .inr (answersNoValue_giveGate _ _ _ _)
  | hsTakeC => cases h; exact .inr (answersNoValue_takeGate _ _ _ _)
  | hsGiveS => cases h; exact .inr (answersNoValue_giveGate _ _ _ _)
  | setTgtH x =>
    obtain rfl := Host.Outcome.next.inj ((dif_pos (of_decide_eq_true hi)).symm.trans h)
    exact .inr (answersNoValue_respond _)
  | setTgtY y =>
    obtain rfl := Host.Outcome.next.inj ((dif_pos (of_decide_eq_true hi)).symm.trans h)
    exact .inr (answersNoValue_respond _)

/-- Settles O5: the refusal is the operation's first check, and no other answer has its status. -/
theorem outOfRangeOperandIsIllegalOperand : Obligations.OutOfRangeOperandIsIllegalOperand := by
  refine ⟨fun i s hi => exec_of_not_wellFormed hi s, fun i s t hi h => ?inRange⟩
  rcases exec_answer_of_wellFormed hi h with ⟨_, hok⟩ | hzero
  · rw [hok]; nofun
  · exact hzero.status

/-- Settles O12: an operation is refused, or is a read that answers OK, or answers no value. -/
theorem responseIsZeroUnlessAReadIsOk : Obligations.ResponseIsZeroUnlessAReadIsOk := by
  intro i s t h
  cases hi : i.wellFormed with
  | false =>
    obtain rfl := Host.Outcome.next.inj ((exec_of_not_wellFormed hi s).symm.trans h)
    exact ⟨fun _ => rfl, fun _ _ _ => rfl⟩
  | true =>
    rcases exec_answer_of_wellFormed hi h with ⟨hread, hok⟩ | hzero
    · refine ⟨fun hne => absurd hok hne, fun hnread hnmean hnyaw => ?_⟩
      rcases hread with ⟨r, k, hr⟩ | ⟨r, hr⟩ | hr
      · exact absurd hr (hnread r k)
      · exact absurd hr (hnmean r)
      · exact absurd hr hnyaw
    · exact ⟨fun _ => hzero.resp, fun _ _ _ => hzero.resp⟩

/-! ### Once round the phase pair (R83, R95, R141) -/

/-- Correcting an intermediate count changes nothing, within one revolution (R133). -/
theorem norm_norm_add {p : Config.Params} (h : p.const = Config.sourceConstants) (c : Int) {d : Int}
    (hc : -448 ≤ c ∧ c ≤ 448) (hd : -1 ≤ d ∧ d ≤ 1) : norm p (norm p c + d) = norm p (c + d) := by
  simp only [norm_eq h]
  split <;> split <;> omega

/-- An edge counts the direction of the pair's change, and the nine bits hold the count (R132). -/
theorem qdEdgeWith_qdCnt {p : Config.Params} (h : p.const = Config.sourceConstants) (b a : BitVec 1) (s : State) :
    (qdEdgeWith p b a s).qdCnt.toInt = norm p (s.qdCnt.toInt + (direction p s.qdPb s.qdPa b a).delta) := by
  obtain ⟨hheld, _⟩ := norm_step h s.qdCnt (direction p s.qdPb s.qdPa b a)
  rw [← hheld, ← delta_eq h]
  rfl

/-- Four edges that each count `d` count `4 * d`, modulo one revolution. -/
theorem four_edges_qdCnt {p : Config.Params} (h : p.const = Config.sourceConstants) {edge : State → State} {d : Int}
    (hd : -1 ≤ d ∧ d ≤ 1) (hedge : ∀ x, (edge x).qdCnt.toInt = norm p (x.qdCnt.toInt + d)) {s : State}
    (hs : CounterLegal s) : (edge (edge (edge (edge s)))).qdCnt.toInt = norm p (s.qdCnt.toInt + 4 * d) := by
  obtain ⟨hlo, hhi⟩ := hs
  rw [hedge, hedge, hedge, hedge, norm_norm_add h (s.qdCnt.toInt + d) (by omega) hd,
    norm_norm_add h (s.qdCnt.toInt + d + d) (by omega) hd, norm_norm_add h (s.qdCnt.toInt + d + d + d) (by omega) hd]
  congr 1
  ring

/-- With the default table, an edge to the next pair of the clockwise cycle is clockwise (R83). -/
theorem direction_clockwise {p : Config.Params} (ht : p.dirTable = Config.defaultDirTable) (pb pa : BitVec 1) :
    direction p pb pa pa (~~~pb) = .clockwise := by
  have htable : ∀ pb pa : BitVec 1, Config.defaultDirTable.get (dirIndex pb pa pa (~~~pb)).toFin = .clockwise := by
    decide
  rw [direction, ht]
  exact htable pb pa

/-- With the default table, an edge to the next pair of the reverse cycle is anticlockwise (R83). -/
theorem direction_anticlockwise {p : Config.Params} (ht : p.dirTable = Config.defaultDirTable) (pb pa : BitVec 1) :
    direction p pb pa (~~~pa) pb = .anticlockwise := by
  have htable : ∀ pb pa : BitVec 1, Config.defaultDirTable.get (dirIndex pb pa (~~~pa) pb).toFin = .anticlockwise := by
    decide
  rw [direction, ht]
  exact htable pb pa

/-- Settles O30: each edge of a cycle counts its direction, and two half turns complement the pair twice. -/
theorem fullPairCycleCountsFourTicks : Obligations.FullPairCycleCountsFourTicks := by
  intro p s hp ht hs cw acw
  have hcw (x : State) : (cw x).qdCnt.toInt = norm p (x.qdCnt.toInt + -1) := by
    rw [qdEdgeWith_qdCnt hp, direction_clockwise ht]
    rfl
  have hacw (x : State) : (acw x).qdCnt.toInt = norm p (x.qdCnt.toInt + 1) := by
    rw [qdEdgeWith_qdCnt hp, direction_anticlockwise ht]
    rfl
  have hnot (b : BitVec 1) : ~~~(~~~b) = b := BitVec.not_not
  exact ⟨four_edges_qdCnt hp (by decide) hcw hs, hnot _, hnot _,
    four_edges_qdCnt hp (by decide) hacw hs, hnot _, hnot _⟩

/-! ### Published values (R98, R201) -/

/-- The degree of a legal count is half a turn at most, either way (R98, R137). -/
theorem yawDeg_legal {p : Config.Params} (h : p.const = Config.sourceConstants) {c : Int} (hc : -223 ≤ c ∧ c ≤ 224) :
    -180 ≤ yawDeg p c ∧ yawDeg p c ≤ 180 := by
  obtain ⟨habove, hbelow⟩ := yawDeg_near h c
  obtain ⟨hlo, hhi⟩ := hc
  have hlo' : (-223 : Rat) ≤ c := by exact_mod_cast hlo
  have hhi' : (c : Rat) ≤ 224 := by exact_mod_cast hhi
  have hgt : (-181 : Rat) < yawDeg p c := by linarith
  have hlt : (yawDeg p c : Rat) < 181 := by linarith
  have hgt' : -181 < yawDeg p c := by exact_mod_cast hgt
  have hlt' : yawDeg p c < 181 := by exact_mod_cast hlt
  omega

/-- `DUTY_ROUND` keeps each axis's range (D17, R191). -/
theorem dutyRound_range {p : Config.Params} (h : p.const = Config.sourceConstants) {q : Rat} {ceil : Int}
    (hceil : ceil = 85 ∨ ceil = 99) (hlo : 0 ≤ q) (hhi : q ≤ ceil) : 0 ≤ dutyRound p q ∧ dutyRound p q ≤ ceil := by
  unfold dutyRound
  split
  next hint =>
    have hq : (q.num : Rat) = q := (Rat.den_eq_one_iff q).1 hint
    rw [← hq] at hlo hhi
    exact ⟨by exact_mod_cast hlo, by exact_mod_cast hhi⟩
  next =>
    have hyaw : p.const.yaw.ceil = 85 := by rw [h]; rfl
    have hmin : p.const.dutyMin = 0 := by rw [h]; rfl
    have hmax : p.const.dutyMax = 99 := by rw [h]; rfl
    rw [hyaw, hmin, hmax]
    split
    next => simp only [clampInt]; omega
    next hgt =>
      rcases hceil with rfl | rfl
      · exact absurd hhi hgt
      · simp only [clampInt]; omega

/-- A duty is in 0..`ceil` on either axis, whatever the unclamped output (R191, R201). -/
theorem duty_range {p : Config.Params} (h : p.const = Config.sourceConstants) (u : Rat) {ceil : Int}
    (hceil : ceil = 85 ∨ ceil = 99) : 0 ≤ duty p u ceil ∧ duty p u ceil ≤ ceil := by
  have hmin : (p.const.dutyMin : Rat) = 0 := by rw [h]; rfl
  have hmax : (p.const.dutyMax : Rat) = 99 := by rw [h]; rfl
  have hpos : (0 : Rat) ≤ ceil := by rcases hceil with rfl | rfl <;> norm_num
  refine dutyRound_range h hceil (le_min ?_ hpos) (min_le_right _ _)
  rw [clampRat, hmin, hmax]
  exact le_min (le_max_right _ _) (by norm_num)

theorem heightDuty_legal (dt : Rat) (s : State) : (Event.pub .actH (heightDuty params dt s)).legal :=
  duty_range rfl _ (.inr rfl)

theorem yawDuty_legal (dt : Rat) (s : State) : (Event.pub .actY (yawDuty params dt s)).legal :=
  duty_range rfl _ (.inl rfl)

theorem smpHeight_legal (s : State) : (Event.pub .dispH (smpHeight s)).legal := by
  have hg : s.smpGround.toNat ≤ 4095 := Nat.le_of_lt_succ s.smpGround.isLt
  have hle := heightAbove_le s.smpGround.toNat (meanOf .height s) hg
  exact ⟨Int.natCast_nonneg _, Int.ofNat_le.2 hle⟩

theorem currentYaw_legal {s : State} (hs : CounterLegal s) : (Event.pub .dispY (currentYaw params s)).legal :=
  yawDeg_legal rfl hs

/-! ### What each operation appends to the trace (R40) -/

theorem traceLegal_emit {e : Event} {s : State} (he : e.legal) (hs : TraceLegal s) : TraceLegal (emit e s) := by
  intro e' hmem
  rcases List.mem_append.1 hmem with hold | hnew
  · exact hs e' hold
  · rw [List.mem_singleton.1 hnew]; exact he

theorem TraceLegal.of_trace_eq {s t : State} (ht : t.trace = s.trace) (hs : TraceLegal s) : TraceLegal t := by
  unfold TraceLegal
  rw [ht]
  exact hs

theorem traceLegal_raiseFatal (task : Task) (c : Cause) (ch : Option Channel) {s : State} (hs : TraceLegal s) :
    TraceLegal (raiseFatal task c ch s) :=
  (traceLegal_emit (e := .fatal task c ch) trivial hs).of_trace_eq (raiseFatal_trace ..)

theorem traceLegal_noteTicks {s : State} (hs : TraceLegal s) (p : Config.Params) : TraceLegal (noteTicks p s) := by
  unfold noteTicks
  split
  · exact traceLegal_emit (e := .timerReload) trivial hs
  · exact hs

/-- `SMP_RUN` publishes a height and the degree of the counter as it stands (R160). -/
theorem traceLegal_smpRunWith {s : State} (hc : CounterLegal s) (hs : TraceLegal s) (v : RawSample) :
    TraceLegal (smpRunWith params v s) := by
  have hrun : TraceLegal (smpWork params v (emit .samplerRun s)) :=
    (traceLegal_emit (e := .samplerRun) trivial hs).of_trace_eq (smpWork_trace ..)
  have hheight := traceLegal_emit (smpHeight_legal (smpWork params v (emit .samplerRun s))) hrun
  have hcounter : CounterLegal (smpWork params v (emit .samplerRun s)) := by
    rw [CounterLegal, smpWork_qdCnt]
    exact hc
  rcases smpRunWith_cases params v s with ⟨_, e⟩ | ⟨_, _, e⟩ | ⟨_, _, _, e⟩ | ⟨_, _, _, _, e⟩ | ⟨_, _, _, _, e⟩ <;>
    rw [e]
  · exact hs
  · exact hs
  · exact traceLegal_raiseFatal _ _ _ hrun
  · exact traceLegal_raiseFatal _ _ _ hheight
  · exact traceLegal_emit (currentYaw_legal hcounter) hheight

/-- `CTL_RUN` publishes duties (R180). -/
theorem traceLegal_ctlRunWith {s : State} (hs : TraceLegal s) : TraceLegal (ctlRunWith params s) := by
  have hrun : TraceLegal (emit .controlRun s) := traceLegal_emit (e := .controlRun) trivial hs
  have hticks := traceLegal_noteTicks hrun params
  have hduty := traceLegal_emit (heightDuty_legal (cycleDt params s) (noteTicks params (emit .controlRun s))) hticks
  rcases ctlRunWith_cases params s with ⟨_, e⟩ | ⟨_, _, e⟩ | ⟨_, _, _, e⟩ | ⟨_, _, _, _, e⟩ | ⟨_, _, _, _, _, e⟩ |
    ⟨_, _, _, _, _, e⟩ <;> rw [e]
  · exact hs
  · exact hs
  · exact traceLegal_raiseFatal _ _ _ hrun
  · exact traceLegal_raiseFatal _ _ _ hticks
  · exact traceLegal_raiseFatal _ _ _ hduty
  · exact traceLegal_emit (yawDuty_legal _ _) hduty

theorem traceLegal_takeGate {s : State} (hs : TraceLegal s) (task : Task) (src dst : Handoff) :
    TraceLegal (takeGate task src dst s) := by
  rcases takeGate_cases task src dst s with ⟨_, e⟩ | ⟨_, _, e⟩ | ⟨_, _, e⟩ <;> rw [e] <;> exact hs

theorem traceLegal_giveGate {s : State} (hs : TraceLegal s) (task : Task) (src dst : Handoff) :
    TraceLegal (giveGate task src dst s) := by
  rcases giveGate_cases task src dst s with ⟨_, e⟩ | ⟨_, _, e⟩ | ⟨_, _, e⟩ <;> rw [e] <;> exact hs

/-- From a legal counter, every operation publishes values in range only (R98, R201). -/
theorem exec_keeps_traceLegal {i : Instr} {s t : State} (hc : CounterLegal s) (h : exec i s = .next t)
    (hs : TraceLegal s) : TraceLegal t := by
  cases i with
  | rfWrite r v => cases h; exact hs.of_trace_eq (pushSample_trace ..)
  | rfRead r k => simp only [exec, execRfRead] at h; split at h <;> cases h <;> exact hs
  | rfMean r => cases h; exact hs
  | qdEdge b a => cases h; exact hs
  | qdRef =>
    simp only [exec, execQdRef] at h
    split at h <;> cases h
    · exact traceLegal_emit (e := .refSeen) trivial hs
    · exact hs
  | qdYaw => cases h; exact hs
  | smpRun v => cases h; exact traceLegal_smpRunWith hc hs v
  | ctlRun => cases h; exact traceLegal_ctlRunWith hs
  | hsTakeS => cases h; exact traceLegal_takeGate hs _ _ _
  | hsGiveC => cases h; exact traceLegal_giveGate hs _ _ _
  | hsTakeC => cases h; exact traceLegal_takeGate hs _ _ _
  | hsGiveS => cases h; exact traceLegal_giveGate hs _ _ _
  | setTgtH x => simp only [exec, execSetTgtH] at h; split at h <;> cases h <;> exact hs
  | setTgtY y => simp only [exec, execSetTgtY] at h; split at h <;> cases h <;> exact hs

theorem advanceTask_trace (x : Stimulus) (s : State) : (advanceTask x s).trace = s.trace := by rw [advanceTask_eq]

/-- Settles O41: a step performs one operation in the presented state, or refuses the word, or starts an empty trace. -/
theorem publishedValuesStayInRange : Obligations.PublishedValuesStayInRange := by
  intro s t hc hs h
  rcases step_cases h with ⟨_, rfl⟩ | ⟨rest, _, rfl⟩ | ⟨x, rest, w, i, u, _, _, _, _, he, rfl⟩ |
    ⟨x, rest, w, e, _, _, _, _, rfl⟩
  case inl => exact hs
  case inr.inl => exact fun e hmem => absurd hmem List.not_mem_nil
  case inr.inr.inl =>
    have hu : TraceLegal u := exec_keeps_traceLegal (s := presented x rest w s) hc he hs
    exact hu.of_trace_eq (advanceTask_trace x u)
  case inr.inr.inr =>
    exact TraceLegal.of_trace_eq (advanceTask_trace x (turnAway .illegalCmd (presented x rest w s))) hs

end Sys2Proof.Machine
end

section
/-! PROOFS. The ring filter: the words of its operations (R87), what they do to the state (R111, R112, R114), the mean
as a rounding (R115), and the in-order window under writes (R113, R118). -/

namespace Sys2Proof

/-! ### The words of the ring filter (R87) -/

/-- A packed word is its four fields, each shifted to its place (R86). -/
theorem packFields_eq_or (u f : BitVec 4) (s : BitVec 8) (i : BitVec 16) :
    packFields u f s i =
      (u.setWidth 32 <<< 28) ||| (f.setWidth 32 <<< 24) ||| (s.setWidth 32 <<< 16) ||| i.setWidth 32 := by
  apply BitVec.eq_of_getElem_eq
  intro j hj
  interval_cases j <;> simp [packFields]

/-- A ring filter's word: unit 1, the function, the ring's selector from bit 16, the operand in the low bits (R87). -/
theorem packFields_ring {n : Nat} (hn : n ≤ 16) (f : BitVec 4) (i : Ring) (x : BitVec n) :
    packFields 1#4 f i.sel (x.setWidth 16) =
      packFields 1#4 f 0#8 0#16 ||| (i.sel.setWidth 32 <<< 16) ||| x.setWidth 32 := by
  have hx : (x.setWidth 16).setWidth 32 = x.setWidth 32 := BitVec.setWidth_setWidth (by omega)
  simp [packFields_eq_or, hx]

end Sys2Proof

namespace Sys2Proof.Machine

/-! ### What the operations do to the state (R111, R112, R114) -/

/-- A write stores at the write index, which is always a slot's, and advances the index (R111). -/
theorem ringPush_eq {n : Nat} (r : RingBuf n) (v : RawSample) :
    ringPush r v = { slot := r.slot.set r.wr.val v r.wr.isLt, wr := ringNext r } := by
  have hset : r.slot.setIfInBounds r.wr.val v = r.slot.set r.wr.val v r.wr.isLt := by
    apply Vector.toArray_inj.1
    rw [Vector.toArray_setIfInBounds, Vector.toArray_set, Array.setIfInBounds_def, dif_pos]
  rw [ringPush, ringStore, hset]

/-- Settles O14: both rings take the sample by `ringPush`. -/
theorem rfWriteStoresAndAdvances : Obligations.RfWriteStoresAndAdvances := by
  intro v s
  exact ⟨packFields_ring (by decide) 0#4 .height v, packFields_ring (by decide) 0#4 .pot v,
    congrArg (fun ring => Host.Outcome.next (respond 0#16 { s with rf0 := ring })) (ringPush_eq s.rf0 v),
    congrArg (fun ring => Host.Outcome.next (respond 0#16 { s with rf1 := ring })) (ringPush_eq s.rf1 v)⟩

/-- `RF_READ` of a position inside the window answers the sample there, which sixteen bits hold exactly (R112). -/
theorem exec_rfRead_of_lt {i : Ring} {k : BitVec 4} (hk : k.toNat < i.capacity) (s : State) :
    exec (.rfRead i k) s = .next (respond ((elementOf i k.toNat s).setWidth 16) s) := by
  have hzext : zext16 (elementOf i k.toNat s).toNat = (elementOf i k.toNat s).setWidth 16 := BitVec.ofNat_toNat ..
  rw [← hzext]
  exact if_neg (Nat.not_le_of_lt hk)

/-- `RF_READ` of a position outside the window is refused (R112, R252). -/
theorem exec_rfRead_of_le {i : Ring} {k : BitVec 4} (hk : i.capacity ≤ k.toNat) (s : State) :
    exec (.rfRead i k) s = .next (turnAway .illegalOperand s) :=
  exec_of_not_wellFormed (i := .rfRead i k) (decide_eq_false (Nat.not_lt_of_le hk)) s

/-- Settles O16: `RF_READ` answers inside the window and is refused outside it, at each ring's capacity. -/
theorem rfReadAnswersTheWindowElement : Obligations.RfReadAnswersTheWindowElement := by
  intro k s
  exact ⟨packFields_ring (by decide) 1#4 .height k, packFields_ring (by decide) 1#4 .pot k,
    fun hk => exec_rfRead_of_lt (i := .height) hk s, fun hk => exec_rfRead_of_lt (i := .pot) hk s,
    fun hk => exec_rfRead_of_le (i := .height) hk s, fun hk => exec_rfRead_of_le (i := .pot) hk s⟩

/-- The sixteen bits of `RESP` hold every mean exactly (R115). -/
theorem zext16_ringMean_toNat {n : Nat} (r : RingBuf n) : (zext16 (ringMean r)).toNat = ringMean r := by
  have hle := ringMean_le r
  rw [zext16, BitVec.toNat_ofNat]
  exact Nat.mod_eq_of_lt (by omega)

/-- Settles O17: `RF_MEAN` answers `ringMean`, which is the formula over the slots. -/
theorem rfMeanAnswersTheRoundedMean : Obligations.RfMeanAnswersTheRoundedMean :=
  ⟨packFields_ring (by decide) 2#4 .height 0#0, packFields_ring (by decide) 2#4 .pot 0#0, fun s =>
    ⟨⟨zext16 (ringMean s.rf0), zext16_ringMean_toNat s.rf0, rfl⟩,
      ⟨zext16 (ringMean s.rf1), zext16_ringMean_toNat s.rf1, rfl⟩⟩⟩

/-! ### The mean as a rounding (R115) -/

/-- Integer division of `2 * sum + N` by `2 * N` is the floor of the exact mean and a half (R115). -/
theorem ringMean_eq_floor {n : Nat} (r : RingBuf n) :
    (ringMean r : Int) = ⌊(ringSum r : ℚ) / (n : ℚ) + 1 / 2⌋ := by
  have hn : (n : ℚ) ≠ 0 := Nat.cast_ne_zero.2 r.wr.pos.ne'
  have hquot : (ringSum r : ℚ) / n + 1 / 2 = ((2 * ringSum r + n : Nat) : ℚ) / ((2 * n : Nat) : ℚ) := by
    push_cast
    field_simp
  rw [hquot, Rat.floor_natCast_div_natCast, ringMean, Int.natCast_ediv]

/-- Settles O18: the mean is a floor, and a mean of samples is at most the largest sample. -/
theorem meanIsNearestIntegerTiesUp : Obligations.MeanIsNearestIntegerTiesUp :=
  fun _ r => ⟨ringMean_eq_floor r, ringMean_le r⟩

/-! ### The window under writes (R113, R118) -/

/-- The window's position `k` after the index advanced is its old position `k + 1` (R112). -/
theorem ringNext_add_mod {n : Nat} (r : RingBuf n) (k : Nat) :
    ((ringNext r).val + k) % n = (r.wr.val + (k + 1)) % n := by
  rw [ringNext, Nat.mod_add_mod, Nat.add_assoc, Nat.add_comm 1 k]

/-- Counting on from the write index by one lap or less comes back to it after the whole lap only (R21). -/
theorem add_mod_eq_self_iff {n w d : Nat} (hw : w < n) (hd : 0 < d) (hdn : d ≤ n) : (w + d) % n = w ↔ d = n := by
  constructor
  · intro h
    rcases Nat.lt_or_ge (w + d) n with hlt | hge
    · rw [Nat.mod_eq_of_lt hlt] at h; omega
    · rw [Nat.mod_eq_sub_mod hge, Nat.mod_eq_of_lt (by omega)] at h; omega
  · rintro rfl
    rw [Nat.add_mod_right, Nat.mod_eq_of_lt hw]

/-- Position `k` after a write is the new sample where the lap ends at the slot just written, else the old position
`k + 1` (R111, R112). -/
theorem ringElement_ringPush {n : Nat} (r : RingBuf n) (v : RawSample) {k : Nat} (hk : k < n) :
    ringElement (ringPush r v) k = if k + 1 = n then v else ringElement r (k + 1) := by
  have hget (q : RingBuf n) (j : Nat) : q.slot[(q.wr.val + j) % n]? = some (ringElement q j) :=
    Vector.getElem?_eq_getElem (Nat.mod_lt _ q.wr.pos)
  have hpos : ((ringPush r v).wr.val + k) % n = (r.wr.val + (k + 1)) % n := ringNext_add_mod r k
  have hlap := add_mod_eq_self_iff r.wr.isLt (Nat.succ_pos k) hk
  apply Option.some.inj
  rw [← hget, hpos, ringPush_slot_getElem?, hget, if_congr hlap rfl rfl, apply_ite some]

/-- A write drops the oldest element of the window and appends the sample (R111, R113, R118). -/
theorem ringWindow_ringPush {n : Nat} (r : RingBuf n) (v : RawSample) :
    ringWindow (ringPush r v) = (ringWindow r).tail ++ [v] := by
  obtain ⟨m, rfl⟩ : ∃ m, n = m + 1 := Nat.exists_eq_succ_of_ne_zero r.wr.pos.ne'
  have hshift : (List.range m).map (ringElement (ringPush r v)) = (List.range m).map (ringElement r ∘ Nat.succ) := by
    refine List.map_congr_left fun k hk => ?_
    have hkm : k < m := List.mem_range.1 hk
    rw [ringElement_ringPush r v (by omega), if_neg (by omega)]
    rfl
  have hnewest : ringElement (ringPush r v) m = v := by
    rw [ringElement_ringPush r v (Nat.lt_succ_self m), if_pos rfl]
  calc ringWindow (ringPush r v)
      = (List.range m).map (ringElement (ringPush r v)) ++ [ringElement (ringPush r v) m] := by
        rw [ringWindow, List.range_succ, List.map_append, List.map_singleton]
    _ = (List.range m).map (ringElement r ∘ Nat.succ) ++ [v] := by rw [hshift, hnewest]
    _ = (ringWindow r).tail ++ [v] := by
        rw [ringWindow, List.range_succ_eq_map, List.map_cons, List.tail_cons, List.map_map]

/-- Settles O19: it is the window's law under one write. -/
theorem writeShiftsTheWindowByOne : Obligations.WriteShiftsTheWindowByOne := fun _ => ringWindow_ringPush

/-- After any writes the window is the last `N` items of what it was followed by the writes (R113). -/
theorem ringWindow_foldl_ringPush {n : Nat} (r : RingBuf n) (ws : List RawSample) :
    ringWindow (ws.foldl ringPush r) = (ringWindow r ++ ws).drop ws.length := by
  induction ws generalizing r with
  | nil => rw [List.foldl_nil, List.append_nil, List.length_nil, List.drop_zero]
  | cons v ws ih =>
    have hne : ringWindow r ≠ [] := List.ne_nil_of_length_pos ((ringWindow_length r).symm ▸ r.wr.pos)
    calc ringWindow ((v :: ws).foldl ringPush r)
        = (ringWindow (ringPush r v) ++ ws).drop ws.length := ih (ringPush r v)
      _ = ((ringWindow r).tail ++ v :: ws).drop ws.length := by
          rw [ringWindow_ringPush, List.append_assoc, List.singleton_append]
      _ = (ringWindow r ++ v :: ws).tail.drop ws.length := by rw [List.tail_append_of_ne_nil hne]
      _ = (ringWindow r ++ v :: ws).drop (v :: ws).length := by rw [List.drop_tail, List.length_cons]

/-- The window of a reset ring is `PREFILL` throughout (R20, R116). -/
theorem ringWindow_reset (prefill : RawSample) (n : Nat) (h : 0 < n) :
    ringWindow (RingBuf.reset prefill n h) = List.replicate n prefill := by
  refine List.eq_replicate_iff.2 ⟨ringWindow_length _, fun w hw => ?_⟩
  obtain ⟨k, _, rfl⟩ := List.mem_map.1 hw
  exact ringReset_slot prefill n h _ _

/-- Settles O20: the window's law under writes, from the reset ring. -/
theorem windowHoldsTheLastWrites : Obligations.WindowHoldsTheLastWrites := by
  intro n h prefill ws
  rw [ringWindow_foldl_ringPush, ringWindow_reset]

end Sys2Proof.Machine
end

section
/-! PROOFS. The quadrature decoder: the normalised counter and its range over every step (R133, R134), its three
operations (R132, R135, R138), and the delivered degree (R136, R137); then the invariants at reset (R38). -/

namespace Sys2Proof

/-! ### The words of the decoder (R87) -/

/-- The pair stands in the two low bits of the word, phase B above phase A (R87, R88). -/
theorem encode_qdEdge (b a : BitVec 1) :
    encode (.qdEdge b a) = 0x20000000#32 ||| (b.setWidth 32 <<< 1) ||| a.setWidth 32 := by
  revert b a; decide

end Sys2Proof

namespace Sys2Proof.Machine

/-! ### The counter (R133, R134) -/

/-- The direction index has the previous pair above the current one, phase B above phase A in each (R81). -/
theorem dirIndex_toNat (pb pa b a : BitVec 1) :
    (dirIndex pb pa b a).toNat = 8 * pb.toNat + 4 * pa.toNat + 2 * b.toNat + a.toNat := by
  revert pb pa b a; decide

/-- Settles O23: the three branches of `Norm`. -/
theorem normalisationCorrectsOnce : Obligations.NormalisationCorrectsOnce := by
  intro c
  rw [norm_eq (p := params) rfl]
  refine ⟨fun habove => ?above, fun hbelow => ?below, fun hlo hhi => ?inside, fun hlo hhi => ?range⟩
  case above => exact if_pos habove
  case below => rw [if_neg (by omega), if_pos hbelow]
  case inside => rw [if_neg (by omega), if_neg (by omega)]
  case range => split_ifs <;> omega

/-- The counter has one writer (R38). -/
theorem qdCnt_not_mem_writes {i : Instr} (hi : ∀ b a, i ≠ .qdEdge b a) : Reg.qdCnt ∉ writes i := by
  cases i with
  | qdEdge b a => exact absurd rfl (hi b a)
  | rfWrite r v => cases r <;> simp [writes]
  | _ => simp [writes]

/-- An edge leaves a legal counter, whatever counter it finds (R132, R134). -/
theorem counterLegal_qdEdgeWith {p : Config.Params} (h : p.const = Config.sourceConstants) (b a : BitVec 1)
    (s : State) : CounterLegal (qdEdgeWith p b a s) := by
  obtain ⟨_, hrange⟩ := norm_step h s.qdCnt (direction p s.qdPb s.qdPa b a)
  rw [CounterLegal, qdEdgeWith_qdCnt h]
  exact hrange

/-- Whether the counter is legal is a matter of the counter alone. -/
theorem CounterLegal.of_qdCnt_eq {s t : State} (h : t.qdCnt = s.qdCnt) (hs : CounterLegal s) : CounterLegal t := by
  rw [CounterLegal, h]
  exact hs

theorem exec_keeps_counterLegal {i : Instr} {s t : State} (h : exec i s = .next t) (hs : CounterLegal s) :
    CounterLegal t := by
  by_cases hi : ∃ b a, i = .qdEdge b a
  · obtain ⟨b, a, rfl⟩ := hi
    cases h
    exact counterLegal_qdEdgeWith rfl b a s
  · exact hs.of_qdCnt_eq (exec_writesOnly h .qdCnt (qdCnt_not_mem_writes fun b a hba => hi ⟨b, a, hba⟩))

theorem counterLegal_reset : CounterLegal State.reset := ⟨by decide, by decide⟩

/-- Settles O24: `QD_EDGE` alone writes the counter, and what it writes is normalised. -/
theorem counterStaysInRange : Obligations.CounterStaysInRange :=
  fun _ _ hs h => step_keeps (fun hst => CounterLegal.of_qdCnt_eq (hst .qdCnt)) counterLegal_reset
    exec_keeps_counterLegal h hs

/-! ### The operations (R132, R135, R138) -/

/-- Settles O22: the counter that `QD_EDGE` stores holds the normalised count exactly. -/
theorem qdEdgeCountsAndStoresThePair : Obligations.QdEdgeCountsAndStoresThePair := fun b a s =>
  ⟨(qdEdgeWith params b a s).qdCnt, (dirIndex s.qdPb s.qdPa b a).toFin, encode_qdEdge b a, dirIndex_toNat ..,
    qdEdgeWith_qdCnt rfl b a s, rfl⟩

/-- Settles O25: the two cases of the enable bit. -/
theorem qdRefIsOneShot : Obligations.QdRefIsOneShot := by
  refine ⟨by decide, fun s => ⟨fun henabled => ?enabled, fun hdisabled => ?disabled⟩⟩
  case enabled =>
    rw [exec, execQdRef, if_pos henabled]
    rfl
  case disabled =>
    rw [exec, execQdRef, if_neg (by simp [hdisabled])]
    rfl

/-- Sixteen bits hold the degree of any nine-bit counter exactly (R138). -/
theorem sext16_currentYaw_toInt {p : Config.Params} (h : p.const = Config.sourceConstants) (s : State) :
    (sext16 (currentYaw p s)).toInt = yawDeg p s.qdCnt.toInt := by
  obtain ⟨hlo, hhi⟩ := yawDeg_range h s.qdCnt
  rw [sext16, currentYaw, BitVec.toInt_ofInt]
  exact Int.bmod_eq_of_le (by omega) (by omega)

/-- Settles O26: the answer is the degree in sixteen bits. -/
theorem qdYawAnswersTheDegree : Obligations.QdYawAnswersTheDegree :=
  ⟨by decide, fun s => ⟨sext16 (currentYaw params s), sext16_currentYaw_toInt rfl s, rfl⟩⟩

/-! ### The degree (R136, R137) -/

/-- Where the exact ratio is an integer, the degree is that integer (R137). -/
theorem yawDeg_mul {p : Config.Params} (h : p.const = Config.sourceConstants) (m : Int) :
    yawDeg p (56 * m) = 45 * m := by
  have hexact : degExact p (56 * m) = ((45 * m : Int) : Rat) := by
    rw [degExact_eq h]
    push_cast
    ring
  rw [yawDeg, hexact, degRound_intCast]

/-- Settles O27: `DEG_ROUND` keeps an integer and takes any other ratio to one of its neighbours. -/
theorem degreeIsWithinOneOfTheExactRatio : Obligations.DegreeIsWithinOneOfTheExactRatio := by
  refine fun c => ⟨fun m hm => ?exact, yawDeg_near rfl c, fun hlo hhi => yawDeg_legal rfl ⟨hlo, hhi⟩⟩
  rw [hm]
  exact yawDeg_mul rfl m

/-! ### The invariants at reset (R38, R98, R134, R162, R236, R255) -/

/-- No run has happened, and both tasks stand before their takes with the Sampler's gate open (R236). -/
theorem alternation_reset : Alternation State.reset := ⟨fun _ hk => absurd hk (Nat.not_lt_zero _), rfl, rfl, rfl⟩

/-- No task is halted, and no cause is recorded (R255). -/
theorem faultRecordsAgree_reset : FaultRecordsAgree State.reset :=
  ⟨fun _ => rfl, nofun, fun _ => rfl, nofun, nofun, nofun⟩

/-- Settles O56: the trace is empty, the ground 0, and the other registers have the values of R38. -/
theorem resetMeetsEveryInvariant : Obligations.ResetMeetsEveryInvariant :=
  ⟨counterLegal_reset, fun _ hmem => absurd hmem List.not_mem_nil, fun _ => rfl, ⟨by decide, by decide⟩,
    faultRecordsAgree_reset, alternation_reset⟩

end Sys2Proof.Machine
end

section
/-! PROOFS. The Sampler's `SMP_RUN` that completes (R160 to R163) or halts on a full display mailbox (R164), as whole
next states. -/

namespace Sys2Proof.Machine

/-! ### A publication, by the mailbox's port (R258) -/

theorem publish_of_full {task : Task} {ch : Channel} {s : State} (h : portFull ch s = true) (v : Int)
    (k : State → State) : publish task ch v k s = raiseFatal task .mailboxOverflow (some ch) s := if_pos h

theorem publish_of_free {task : Task} {ch : Channel} {s : State} (h : portFull ch s = false) (v : Int)
    (k : State → State) : publish task ch v k s = k (emit (.pub ch v) s) := if_neg (by simp [h])

/-! ### Steps 1 to 6 of `SMP_RUN` -/

/-- The ground after step 3: this cycle's mean where the capture is due (R161). -/
def sampledGround (r : RawSample) (s : State) : BitVec 12 :=
  if s.smpCalDone = false ∧ s.tgtH.val = 0 then BitVec.ofNat 12 (ringMean (ringPush s.rf0 r)) else s.smpGround

/-- The height of step 4 (R162). -/
def sampledHeight (r : RawSample) (s : State) : Nat :=
  heightAbove (sampledGround r s).toNat (ringMean (ringPush s.rf0 r))

/-- The state after steps 1 to 6: `smpWork` with its five registers written out, see `smpWork_eq_sampled`. -/
def sampled (p : Config.Params) (r : RawSample) (s : State) : State :=
  { s with
    rf0 := ringPush s.rf0 r
    smpGround := sampledGround r s
    smpCalDone := s.smpCalDone || decide (s.tgtH.val = 0)
    chH := BitVec.ofNat 12 (sampledHeight r s)
    chY := BitVec.ofInt 9 (yawDeg p s.qdCnt.toInt) }

/-- The state after steps 1 to 8 with both display mailboxes free; see `smpRunWith_of_free`. -/
def published (p : Config.Params) (r : RawSample) (s : State) : State :=
  { sampled p r s with
    trace := s.trace ++ [.samplerRun, .pub .dispH (sampledHeight r s), .pub .dispY (yawDeg p s.qdCnt.toInt)] }

theorem smpWork_smpGround_eq_sampledGround (p : Config.Params) (r : RawSample) (s : State) :
    (smpWork p r s).smpGround = sampledGround r s := by
  simp only [smpWork_smpGround, sampledGround, Fin.ext_iff, Fin.val_zero]

theorem smpWork_eq_sampled (p : Config.Params) (r : RawSample) (s : State) : smpWork p r s = sampled p r s := by
  have hdone : decide (s.tgtH = 0) = decide (s.tgtH.val = 0) := decide_eq_decide.2 Fin.ext_iff
  rw [smpWork_eq, smpWork_smpGround_eq_sampledGround, hdone]
  rfl

/-- A mean fits the ground register (R115, R161). -/
theorem toNat_ofNat_ringMean {n : Nat} (ring : RingBuf n) :
    (BitVec.ofNat 12 (ringMean ring)).toNat = ringMean ring := by
  have hle := ringMean_le ring
  rw [BitVec.toNat_ofNat]
  exact Nat.mod_eq_of_lt (by omega)

theorem sampledGround_of_due {r : RawSample} {s : State} (hdone : s.smpCalDone = false) (htgt : s.tgtH.val = 0) :
    (sampledGround r s).toNat = ringMean (ringPush s.rf0 r) := by
  rw [sampledGround, if_pos ⟨hdone, htgt⟩]
  exact toNat_ofNat_ringMean _

theorem sampledGround_of_not_due {r : RawSample} {s : State} (h : s.smpCalDone = true ∨ s.tgtH.val ≠ 0) :
    sampledGround r s = s.smpGround := by
  refine if_neg fun ⟨hdone, htgt⟩ => h.elim (fun hd => ?_) (absurd htgt)
  rw [hd] at hdone
  cases hdone

/-- A height fits `CH_H` (R29, R162). -/
theorem toNat_ofNat_sampledHeight (r : RawSample) (s : State) :
    (BitVec.ofNat 12 (sampledHeight r s)).toNat = sampledHeight r s := by
  have hle : sampledHeight r s ≤ 4095 := heightAbove_le _ _ (Nat.le_of_lt_succ (sampledGround r s).isLt)
  rw [BitVec.toNat_ofNat]
  exact Nat.mod_eq_of_lt (by omega)

/-- The degree of any counter fits `CH_Y` (R29, R138). -/
theorem toInt_ofInt_yawDeg {p : Config.Params} (h : p.const = Config.sourceConstants) (c : BitVec 9) :
    (BitVec.ofInt 9 (yawDeg p c.toInt)).toInt = yawDeg p c.toInt := by
  obtain ⟨hlo, hhi⟩ := yawDeg_range h c
  rw [BitVec.toInt_ofInt]
  exact Int.bmod_eq_of_le (by omega) (by omega)

/-! ### The three outcomes of a run in its phase (R160, R164) -/

section
variable {p : Config.Params} {r : RawSample} {s : State}

/-- In its phase and not halted, `SMP_RUN` samples and goes on to the display mailboxes (R160, R261). -/
theorem smpRunWith_of_running (hrunning : s.fatalS = false) (hhs : s.hs = .smp) :
    smpRunWith p r s = smpPublish p (sampled p r (emit .samplerRun s)) := by
  rw [smpRunWith, if_neg (by simp [hrunning]), if_neg (not_not_intro hhs), smpWork_eq_sampled]

/-- With both display mailboxes free the run completes (R160). -/
theorem smpRunWith_of_free (hrunning : s.fatalS = false) (hhs : s.hs = .smp) (hDH : s.ports.fullDH = false)
    (hDY : s.ports.fullDY = false) : smpRunWith p r s = respond 0#16 (published p r s) := by
  have htrace (a b c : Event) : s.trace ++ [a, b, c] = s.trace ++ [a] ++ [b] ++ [c] := by simp
  rw [smpRunWith_of_running hrunning hhs, smpPublish, publish_of_free, publish_of_free, published, htrace]
  · rfl
  · exact hDY
  · exact hDH

/-- A full height mailbox halts the Sampler at step 7 (R164). -/
theorem smpRunWith_of_fullDH (hrunning : s.fatalS = false) (hhs : s.hs = .smp) (hDH : s.ports.fullDH = true) :
    smpRunWith p r s = { sampled p r s with
      fatalS := true
      fatalCauseS := 1#4
      trace := s.trace ++ [.samplerRun, .fatal .sampler .mailboxOverflow (some .dispH)]
      status := .fatal
      resp := 0#16 } := by
  have htrace (a b : Event) : s.trace ++ [a, b] = s.trace ++ [a] ++ [b] := by simp
  rw [smpRunWith_of_running hrunning hhs, smpPublish, publish_of_full, htrace]
  · rfl
  · exact hDH

/-- A full yaw mailbox halts the Sampler at step 8, with the height published (R164). -/
theorem smpRunWith_of_fullDY (hrunning : s.fatalS = false) (hhs : s.hs = .smp) (hDH : s.ports.fullDH = false)
    (hDY : s.ports.fullDY = true) :
    smpRunWith p r s = { sampled p r s with
      fatalS := true
      fatalCauseS := 2#4
      trace := s.trace ++ [.samplerRun, .pub .dispH (sampledHeight r s), .fatal .sampler .mailboxOverflow (some .dispY)]
      status := .fatal
      resp := 0#16 } := by
  have htrace (a b c : Event) : s.trace ++ [a, b, c] = s.trace ++ [a] ++ [b] ++ [c] := by simp
  rw [smpRunWith_of_running hrunning hhs, smpPublish, publish_of_free, publish_of_full, htrace]
  · rfl
  · exact hDY
  · exact hDH

end

/-- Settles O31: the completing run's next state, whose ground, height and yaw fit their registers. -/
theorem smpRunCompletesACycle : Obligations.SmpRunCompletesACycle := by
  intro r s hrunning hhs hDH hDY
  refine ⟨ringPush s.rf0 r, ringMean (ringPush s.rf0 r), sampledHeight r s, sampledGround r s,
    yawDeg params s.qdCnt.toInt, ?slot, rfl, rfl, sampledGround_of_due, sampledGround_of_not_due, rfl, rfl, ?next,
    toNat_ofNat_sampledHeight r s, toInt_ofInt_yawDeg rfl s.qdCnt⟩
  case slot => rw [ringPush_eq]
  case next => exact congrArg Host.Outcome.next (smpRunWith_of_free hrunning hhs hDH hDY)

/-- Settles O32: each halting run's next state keeps the writes of steps 1 to 6. -/
theorem smpRunHaltsOnAFullMailbox : Obligations.SmpRunHaltsOnAFullMailbox := by
  refine fun r s hrunning hhs => ⟨fun hDH => ?height, fun hDH hDY => ?yaw⟩
  case height =>
    exact ⟨_, congrArg Host.Outcome.next (smpRunWith_of_fullDH hrunning hhs hDH),
      rfl, rfl, rfl, rfl, hhs, rfl, rfl, rfl, rfl, rfl, rfl, rfl⟩
  case yaw =>
    exact ⟨_, congrArg Host.Outcome.next (smpRunWith_of_fullDY hrunning hhs hDH hDY),
      rfl, rfl, rfl, rfl, hhs, rfl, rfl, rfl, rfl, rfl, rfl, rfl⟩

end Sys2Proof.Machine
end

section
/-! PROOFS. The tasks' turns round one cycle (R70, R165, R196): each task's three turns as one whole next state. -/

namespace Sys2Proof.Machine

/-! ### A gate that is open or held (R231 to R234) -/

theorem takeGate_of_open {task : Task} {src dst : Handoff} {s : State} (hrunning : halted task s = false)
    (hhs : s.hs = src) : takeGate task src dst s = respond 0#16 { s with hs := dst } := by
  rw [takeGate, if_neg (by simp [hrunning]), if_pos hhs]

theorem giveGate_of_held {task : Task} {src dst : Handoff} {s : State} (hrunning : halted task s = false)
    (hhs : s.hs = src) : giveGate task src dst s = respond 0#16 { s with hs := dst } := by
  rw [giveGate, if_neg (by simp [hrunning]), if_pos hhs]

/-! ### `CTL_RUN` that completes (R180) -/

/-- The state after both axes' steps with nothing in their way: the timer shadow, the two axes' state, and the events of
`CTL_RUN`'s rule in their order; see `ctlRunWith_of_free`. -/
def controlled (p : Config.Params) (s : State) : State :=
  { s with
    ctlLastTicks := if s.ports.ticks.toNat < p.const.reloadThreshold then p.const.reloadValue else s.ports.ticks
    pidH := (heightStep p (cycleDt p s) s).1
    pidY := (yawStep p (cycleDt p s) s).1
    trace := s.trace ++ [.controlRun] ++
      (if s.ports.ticks.toNat < p.const.reloadThreshold then [.timerReload] else []) ++
      [.pub .actH (heightDuty p (cycleDt p s) s), .pub .actY (yawDuty p (cycleDt p s) s)] }

/-- In its phase and not halted, with time passed and both actuator mailboxes free, `CTL_RUN` completes (R180). -/
theorem ctlRunWith_of_free {p : Config.Params} {s : State} (hrunning : s.fatalC = false) (hhs : s.hs = .ctl)
    (htime : s.ports.ticks.toNat < s.ctlLastTicks.toNat) (hAH : s.ports.fullAH = false)
    (hAY : s.ports.fullAY = false) : ctlRunWith p s = respond 0#16 (controlled p s) := by
  have helapsed : ¬ elapsed s.ctlLastTicks s.ports.ticks ≤ 0 := by unfold elapsed; omega
  have htrace (l : List Event) (a b : Event) : l ++ [a, b] = l ++ [a] ++ [b] := by simp
  rw [ctlRunWith, if_neg (by simp [hrunning]), if_neg (not_not_intro hhs), if_neg helapsed, noteTicks_eq, ctlAxes,
    publish_of_free, ctlYaw, publish_of_free, controlled, htrace]
  · rfl
  · exact hAY
  · exact hAH

/-! ### A task's turn (R70) -/

section
variable {s u : State} {rest : List Stimulus} {r : RawSample} {q : Ports} {stage : Stage}

/-- A turn of the Sampler whose operation is answered OK leaves what the operation left, with its place moved on (R70,
R165). -/
theorem step_sampler_of_ok (hx : s.inputs = .sampler r q :: rest) (hat : s.samplerAt = stage)
    (he : exec (samplerOp stage r) (presented (.sampler r q) rest (encode (samplerOp stage r)) s) = .next u)
    (hok : u.status = .ok) : step s = .next { u with samplerAt := stage.next } := by
  obtain ⟨_, hplace, _⟩ := exec_agents he
  subst hat
  rw [step_of_encode hx rfl he, advanceTask_sampler, if_pos hok, hplace]
  rfl

/-- A turn of the Control Loop whose operation is answered OK leaves what the operation left, with its place moved on
(R70, R196). -/
theorem step_control_of_ok (hx : s.inputs = .control q :: rest) (hat : s.controlAt = stage)
    (he : exec (controlOp stage) (presented (.control q) rest (encode (controlOp stage)) s) = .next u)
    (hok : u.status = .ok) : step s = .next { u with controlAt := stage.next } := by
  obtain ⟨_, _, hplace, _⟩ := exec_agents he
  subst hat
  rw [step_of_encode hx rfl he, advanceTask_control, if_pos hok, hplace]
  rfl

end

/-- A run whose first step is known goes on from there. -/
theorem run_succ_of_step {s t : State} (h : step s = .next t) (n : Nat) :
    Sys2Proof.core.run (n + 1) s = Sys2Proof.core.run n t := by
  have hcore : Sys2Proof.core.step s = .next t := h
  simp only [Host.Core.run, hcore]

/-- A run whose first three steps are known goes on from there. -/
theorem run_three_of_steps {s t u v : State} (hs : step s = .next t) (ht : step t = .next u) (hu : step u = .next v)
    (n : Nat) : Sys2Proof.core.run (n + 3) s = Sys2Proof.core.run n v :=
  (run_succ_of_step hs (n + 2)).trans ((run_succ_of_step ht (n + 1)).trans (run_succ_of_step hu n))

/-! ### Each turn of a cycle -/

section
variable {s : State} {rest : List Stimulus} {r : RawSample} {q : Ports} {stage : Stage} {dst : Handoff}

/-- The Sampler's turn at a gate moves the token (R231, R232). -/
theorem step_sampler_gate (hx : s.inputs = .sampler r q :: rest) (hat : s.samplerAt = stage)
    (he : exec (samplerOp stage r) (presented (.sampler r q) rest (encode (samplerOp stage r)) s) =
      .next (respond 0#16 { presented (.sampler r q) rest (encode (samplerOp stage r)) s with hs := dst })) :
    step s = .next { s with
      hs := dst, status := .ok, resp := 0#16, cmd := encode (samplerOp stage r), ports := q, inputs := rest
      samplerAt := stage.next } := by
  have he' : exec (samplerOp stage r) (presented (.sampler r q) rest (encode (samplerOp stage r)) s) = .next { s with
      hs := dst, status := .ok, resp := 0#16, cmd := encode (samplerOp stage r), ports := q, inputs := rest } := he
  exact step_sampler_of_ok hx hat he' rfl

/-- The Sampler's run completes (R160). -/
theorem step_samplerRun (hrunning : s.fatalS = false) (hhs : s.hs = .smp) (hat : s.samplerAt = .run)
    (hx : s.inputs = .sampler r q :: rest) (hDH : q.fullDH = false) (hDY : q.fullDY = false) :
    step s = .next { published params r s with
      status := .ok, resp := 0#16, cmd := encode (.smpRun r), ports := q, inputs := rest, samplerAt := .give } := by
  have he : exec (.smpRun r) (presented (.sampler r q) rest (encode (.smpRun r)) s) =
      .next { published params r s with
        status := .ok, resp := 0#16, cmd := encode (.smpRun r), ports := q, inputs := rest } :=
    congrArg Host.Outcome.next
      (smpRunWith_of_free (s := presented (.sampler r q) rest (encode (.smpRun r)) s) hrunning hhs hDH hDY)
  exact step_sampler_of_ok hx hat he rfl

/-- The Control Loop's turn at a gate moves the token (R233, R234). -/
theorem step_control_gate (hx : s.inputs = .control q :: rest) (hat : s.controlAt = stage)
    (he : exec (controlOp stage) (presented (.control q) rest (encode (controlOp stage)) s) =
      .next (respond 0#16 { presented (.control q) rest (encode (controlOp stage)) s with hs := dst })) :
    step s = .next { s with
      hs := dst, status := .ok, resp := 0#16, cmd := encode (controlOp stage), ports := q, inputs := rest
      controlAt := stage.next } := by
  have he' : exec (controlOp stage) (presented (.control q) rest (encode (controlOp stage)) s) = .next { s with
      hs := dst, status := .ok, resp := 0#16, cmd := encode (controlOp stage), ports := q, inputs := rest } := he
  exact step_control_of_ok hx hat he' rfl

/-- The Control Loop's run completes (R180). -/
theorem step_controlRun (hrunning : s.fatalC = false) (hhs : s.hs = .ctl) (hat : s.controlAt = .run)
    (hx : s.inputs = .control q :: rest) (htime : q.ticks.toNat < s.ctlLastTicks.toNat) (hAH : q.fullAH = false)
    (hAY : q.fullAY = false) :
    step s = .next { controlled params { s with ports := q } with
      status := .ok, resp := 0#16, cmd := encode .ctlRun, inputs := rest, controlAt := .give } := by
  have he : exec .ctlRun (presented (.control q) rest (encode .ctlRun) s) =
      .next { controlled params { s with ports := q } with
        status := .ok, resp := 0#16, cmd := encode .ctlRun, inputs := rest } :=
    congrArg Host.Outcome.next
      (ctlRunWith_of_free (s := presented (.control q) rest (encode .ctlRun) s) hrunning hhs htime hAH hAY)
  exact step_control_of_ok hx hat he rfl

end

/-! ### One task's three turns -/

/-- The state after the Sampler's three turns: its cycle's work on `r`, and the token with the Control Loop; `q` are the
ports of the last turn. See `run_samplerTurns`. -/
def samplerTurned (r : RawSample) (q : Ports) (rest : List Stimulus) (s : State) : State :=
  { published params r s with
    hs := .wfc, status := .ok, resp := 0#16, cmd := encode .hsGiveC, ports := q, inputs := rest, samplerAt := .take }

/-- The state after the Control Loop's three turns: its cycle's work with the ports `q1`, and the token back at
`SampleReady`; `q2` are the ports of the last turn. See `run_controlTurns`. -/
def controlTurned (q1 q2 : Ports) (rest : List Stimulus) (s : State) : State :=
  { controlled params { s with ports := q1 } with
    hs := .wfs, status := .ok, resp := 0#16, cmd := encode .hsGiveS, ports := q2, inputs := rest, controlAt := .take }

/-- The Sampler's three turns from `SampleReady`, with free display mailboxes (R165). -/
theorem run_samplerTurns {s : State} {r0 r1 r2 : RawSample} {p0 p1 p2 : Ports} {rest : List Stimulus}
    (hrunning : s.fatalS = false) (hhs : s.hs = .wfs) (hat : s.samplerAt = .take)
    (hx : s.inputs = .sampler r0 p0 :: .sampler r1 p1 :: .sampler r2 p2 :: rest)
    (hDH : p1.fullDH = false) (hDY : p1.fullDY = false) (n : Nat) :
    Sys2Proof.core.run (n + 3) s = Sys2Proof.core.run n (samplerTurned r1 p2 rest s) :=
  run_three_of_steps (step_sampler_gate hx hat (congrArg Host.Outcome.next (takeGate_of_open hrunning hhs)))
    (step_samplerRun hrunning rfl rfl rfl hDH hDY)
    (step_sampler_gate rfl rfl (congrArg Host.Outcome.next (giveGate_of_held hrunning rfl))) n

/-- The Control Loop's three turns from `ControlDone`, with time passed and free actuator mailboxes (R196). -/
theorem run_controlTurns {s : State} {q0 q1 q2 : Ports} {rest : List Stimulus}
    (hrunning : s.fatalC = false) (hhs : s.hs = .wfc) (hat : s.controlAt = .take)
    (hx : s.inputs = .control q0 :: .control q1 :: .control q2 :: rest)
    (htime : q1.ticks.toNat < s.ctlLastTicks.toNat) (hAH : q1.fullAH = false) (hAY : q1.fullAY = false) (n : Nat) :
    Sys2Proof.core.run (n + 3) s = Sys2Proof.core.run n (controlTurned q1 q2 rest s) :=
  run_three_of_steps (step_control_gate hx hat (congrArg Host.Outcome.next (takeGate_of_open hrunning hhs)))
    (step_controlRun hrunning rfl rfl rfl htime hAH hAY)
    (step_control_gate rfl rfl (congrArg Host.Outcome.next (giveGate_of_held hrunning rfl))) n

/-- The six turns are one whole cycle's work, the Sampler's before the Control Loop's (R165, R196). -/
theorem run_cycleTurns {s : State} {r0 r1 r2 : RawSample} {p0 p1 p2 q0 q1 q2 : Ports} {later rest : List Stimulus}
    (hS : s.fatalS = false) (hC : s.fatalC = false) (hhs : s.hs = .wfs) (hsAt : s.samplerAt = .take)
    (hcAt : s.controlAt = .take) (hx : s.inputs = .sampler r0 p0 :: .sampler r1 p1 :: .sampler r2 p2 :: later)
    (hlater : later = .control q0 :: .control q1 :: .control q2 :: rest)
    (hDH : p1.fullDH = false) (hDY : p1.fullDY = false) (hAH : q1.fullAH = false) (hAY : q1.fullAY = false)
    (htime : q1.ticks.toNat < s.ctlLastTicks.toNat) (n : Nat) :
    Sys2Proof.core.run (n + 6) s =
      Sys2Proof.core.run n (controlTurned q1 q2 rest (samplerTurned r1 p2 later s)) := by
  have hcontrol : Sys2Proof.core.run (n + 3) (samplerTurned r1 p2 later s) =
      Sys2Proof.core.run n (controlTurned q1 q2 rest (samplerTurned r1 p2 later s)) :=
    run_controlTurns (s := samplerTurned r1 p2 later s) hC rfl hcAt hlater htime hAH hAY n
  exact (run_samplerTurns hS hhs hsAt hx hDH hDY (n + 3)).trans hcontrol

/-- The Control Loop's events of a cycle (R180, R183). -/
theorem controlTurned_trace (q1 q2 : Ports) (rest : List Stimulus) (s : State) :
    ∃ dh dy : Int, (controlTurned q1 q2 rest s).trace = s.trace ++ [Event.controlRun] ++
      (if q1.ticks.toNat < 400000000 then [Event.timerReload] else []) ++ [Event.pub .actH dh, Event.pub .actY dy] :=
  ⟨_, _, rfl⟩

/-- Settles O59: the state after the six turns, and the events it holds. -/
theorem oneWholeCycleCompletes : Obligations.OneWholeCycleCompletes := by
  intro s r0 r1 r2 p0 p1 p2 q0 q1 q2 rest hhs hsAt hcAt hS hC hx hDH hDY hAH hAY htime
  have hcycle := run_cycleTurns hS hC hhs hsAt hcAt hx rfl hDH hDY hAH hAY htime 0
  obtain ⟨dh, dy, htrace⟩ := controlTurned_trace q1 q2 rest
    (samplerTurned r1 p2 (.control q0 :: .control q1 :: .control q2 :: rest) s)
  exact ⟨_, sampledHeight r1 s, yawDeg params s.qdCnt.toInt, dh, dy, hcycle, rfl, rfl, rfl, hS, hC, rfl,
    htrace.trans (by simp [samplerTurned, published])⟩

end Sys2Proof.Machine
end

section
/-! PROOFS. The Control Loop: the PID step in exact rationals (R187), the duty's range (R191), the yaw error (R193), the
outcomes of `CTL_RUN` as whole next states (R180 to R195), what each axis may see of the other (R200), and the setpoint
deliveries (R198, R199). -/

namespace Sys2Proof

/-! ### The words of the setpoint deliveries (R87) -/

/-- A word of format `I` is its unit and function, with the operand in the low bits (R87). -/
theorem packFields_imm {n : Nat} (hn : n ≤ 16) (u f : BitVec 4) (x : BitVec n) :
    packFields u f 0#8 (x.setWidth 16) = packFields u f 0#8 0#16 ||| x.setWidth 32 := by
  have hx : (x.setWidth 16).setWidth 32 = x.setWidth 32 := BitVec.setWidth_setWidth (by omega)
  simp [packFields_eq_or, hx]

end Sys2Proof

namespace Sys2Proof.Machine

/-! ### The setpoint deliveries (R198, R199) -/

theorem exec_setTgtH_of_lt {x : BitVec 4} (hx : x.toNat < Config.hSteps) (s : State) :
    exec (.setTgtH x) s = .next (respond 0#16 { s with tgtH := ⟨x.toNat, hx⟩ }) := dif_pos hx

theorem exec_setTgtY_of_lt {y : BitVec 5} (hy : y.toNat < Config.ySteps) (s : State) :
    exec (.setTgtY y) s = .next (respond 0#16 { s with tgtY := ⟨y.toNat, hy⟩ }) := dif_pos hy

/-- Settles O45: the index is checked against the number of steps of its axis, and nothing else is looked at. -/
theorem setpointDeliveriesAreRangeChecked : Obligations.SetpointDeliveriesAreRangeChecked := by
  refine ⟨packFields_imm (by decide) 6#4 0#4, packFields_imm (by decide) 6#4 1#4, fun s =>
    ⟨fun x hx => ?legalH, fun x hx => ?refusedH, fun y hy => ?legalY, fun y hy => ?refusedY⟩⟩
  case legalH => exact ⟨_, rfl, exec_setTgtH_of_lt (Nat.lt_succ_of_le hx) s⟩
  case refusedH => exact exec_of_not_wellFormed (i := .setTgtH x) (decide_eq_false (Nat.not_lt_of_le hx)) s
  case legalY => exact ⟨_, rfl, exec_setTgtY_of_lt (Nat.lt_succ_of_le hy) s⟩
  case refusedY => exact exec_of_not_wellFormed (i := .setTgtY y) (decide_eq_false (Nat.not_lt_of_le hy)) s

/-! ### The yaw error (R193) -/

theorem yawErr_of_gt {t c : Int} (h : t - c > 180) : yawErr t c = -(t - (c + 360)) := if_pos (by omega)

theorem yawErr_of_le {t c : Int} (h : t - c ≤ 180) : yawErr t c = -(t - c) := if_neg (by omega)

/-- Settles O40: the candidates differ by a whole turn, so the smaller is known from the side of 180 the direct one is
on. -/
theorem yawErrorWrapsOnOneSideOnly : Obligations.YawErrorWrapsOnOneSideOnly := by
  refine fun t c => ⟨yawErr_of_gt, yawErr_of_le, ?_⟩
  rcases lt_or_ge 180 (t - c) with hwrap | hdirect
  · rw [yawErr_of_gt hwrap]
    omega
  · rw [yawErr_of_le hdirect]
    omega

/-! ### The PID step over exact rationals (R187) -/

/-- The accumulator after a cycle: zeroed strictly inside the deadband, then this cycle's term is added (R187, R188). -/
theorem integrate_exactNum (axis : Config.Axis) (i : ℚ) (e : Int) (dt : ℚ) :
    integrate Config.exactNum axis i e dt = (if |e| < axis.db then 0 else i) + (e : ℚ) * dt := by
  rw [Int.abs_eq_natAbs]
  rfl

/-- The new state and the output, over the new accumulator (R187). -/
theorem pidStep_exactNum (axis : Config.Axis) (parked : Bool) (e : Int) (dt : ℚ) (st : Pid) :
    pidStep Config.exactNum axis parked e dt st =
      (⟨integrate Config.exactNum axis st.i e dt, e⟩,
        (if parked then 0 else (axis.offset : ℚ)) + axis.kp * (e : ℚ) + axis.kd * (((st.last : ℚ) - (e : ℚ)) / dt) +
          axis.ki * integrate Config.exactNum axis st.i e dt) := by
  rw [← Int.cast_sub, ← Int.cast_zero, ← apply_ite]
  rfl

/-- With no derivative gain the output is offset, proportional and integral term (R187). -/
theorem pidStep_of_kd_eq_zero {axis : Config.Axis} (hkd : axis.kd = 0) {parked : Bool} {e : Int} {dt : ℚ} {st : Pid}
    {i : ℚ} (hi : i = (if |e| < axis.db then 0 else st.i) + (e : ℚ) * dt) :
    pidStep Config.exactNum axis parked e dt st =
      (⟨i, e⟩, (if parked then 0 else (axis.offset : ℚ)) + axis.kp * (e : ℚ) + axis.ki * i) := by
  rw [pidStep_exactNum, hkd, zero_mul, add_zero, integrate_exactNum, ← hi]

/-- Settles O38: the two sides of the deadband. -/
theorem pidStepResetsThenAccumulates : Obligations.PidStepResetsThenAccumulates := by
  refine fun axis parked e dt st _ => ⟨integrate Config.exactNum axis st.i e dt, fun hin => ?inside,
    fun hout => ?outside, pidStep_exactNum axis parked e dt st⟩
  case inside => rw [integrate_exactNum, if_pos hin, zero_add]
  case outside => rw [integrate_exactNum, if_neg (not_lt_of_ge hout)]

/-! ### The duty (R191, R201) -/

/-- The duty of the source's range 0..99 (R191). -/
theorem duty_eq {p : Config.Params} (h : p.const = Config.sourceConstants) (u : ℚ) (ceil : Int) :
    duty p u ceil = dutyRound p (min (min (max u 0) 99) ceil) := by
  have hmin : (p.const.dutyMin : ℚ) = 0 := by rw [h]; rfl
  have hmax : (p.const.dutyMax : ℚ) = 99 := by rw [h]; rfl
  rw [duty, clampRat, hmin, hmax]

/-- An output at its ceiling or above gives the ceiling (R191). -/
theorem duty_of_ceil_le {p : Config.Params} (h : p.const = Config.sourceConstants) {u : ℚ} {ceil : Int}
    (hceil : ceil ≤ 99) (hu : (ceil : ℚ) ≤ u) : duty p u ceil = ceil := by
  have hceil' : (ceil : ℚ) ≤ 99 := by exact_mod_cast hceil
  rw [duty_eq h, min_eq_right (le_min (le_max_of_le_left hu) hceil'), dutyRound_intCast]

/-- An output that is not positive gives 0 (R191). -/
theorem duty_of_nonpos {p : Config.Params} (h : p.const = Config.sourceConstants) {u : ℚ} {ceil : Int}
    (hceil : 0 ≤ ceil) (hu : u ≤ 0) : duty p u ceil = 0 := by
  have hceil' : (0 : ℚ) ≤ ceil := by exact_mod_cast hceil
  rw [duty_eq h, max_eq_right hu, min_eq_left (by norm_num : (0 : ℚ) ≤ 99), min_eq_left hceil', ← Int.cast_zero,
    dutyRound_intCast]

/-- Settles O39: the range of each axis, and the outputs at and past its ends. -/
theorem dutyIsClamped : Obligations.DutyIsClamped := fun u =>
  ⟨duty_range rfl u (.inr rfl), duty_range rfl u (.inl rfl), duty_of_ceil_le rfl (by decide),
    duty_of_ceil_le rfl (by decide), fun hu => ⟨duty_of_nonpos rfl (by decide) hu, duty_of_nonpos rfl (by decide) hu⟩⟩

/-! ### The two axes with the source's constants (R182, R185, R190, R194) -/

theorem heightTable_get : ∀ i : Fin Config.hSteps, Config.heightTable.get i = 100 * (i.val : Int) := by decide

theorem cycleHeightErr_params (s : State) :
    cycleHeightErr params s = 100 * (s.tgtH.val : Int) - (s.chH.toNat : Int) :=
  congrArg (· - (s.chH.toNat : Int)) (heightTable_get s.tgtH)

theorem cycleParked_params (s : State) :
    cycleParked params s = (decide (s.tgtH.val = 0) && params.parkPred (cycleHeightErr params s)) := by
  have hzero : decide (s.tgtH = 0) = decide (s.tgtH.val = 0) := decide_eq_decide.2 Fin.ext_iff
  rw [cycleParked, isParked, hzero]

/-- Time is the ticks the counter went down, scaled (R182). -/
theorem cycleDt_params (s : State) :
    cycleDt params s = ((s.ctlLastTicks.toNat : ℚ) - (s.ports.ticks.toNat : ℚ)) * params.dtScale := by
  rw [← Int.cast_natCast, ← Int.cast_natCast (s.ports.ticks.toNat), ← Int.cast_sub]
  rfl

/-- The height axis's step; its derivative gain is 0 (R187, R190). -/
theorem heightStep_params (dt : ℚ) (s : State) (i : ℚ)
    (hi : i = (if |cycleHeightErr params s| < 20 then 0 else s.pidH.i) + (cycleHeightErr params s : ℚ) * dt) :
    heightStep params dt s = (⟨i, cycleHeightErr params s⟩,
      (if cycleParked params s then 0 else 50) + 1 / 10 * (cycleHeightErr params s : ℚ) + 1 / 100000 * i) := by
  refine (pidStep_of_kd_eq_zero (axis := params.const.height) rfl hi).trans (congrArg (Prod.mk _) ?_)
  simp [params, Config.sourceConstants]

/-- The yaw axis's step; its derivative gain is 0 (R187, R194). -/
theorem yawStep_params (dt : ℚ) (s : State) (i : ℚ)
    (hi : i = (if |cycleYawErr params s| < 2 then 0 else s.pidY.i) + (cycleYawErr params s : ℚ) * dt) :
    yawStep params dt s = (⟨i, cycleYawErr params s⟩,
      (if cycleParked params s then 0 else 40) + (cycleYawErr params s : ℚ) + 1 / 5000 * i) := by
  refine (pidStep_of_kd_eq_zero (axis := params.const.yaw) rfl hi).trans (congrArg (Prod.mk _) ?_)
  simp [params, Config.sourceConstants]

/-! ### The outcomes of `CTL_RUN` in its phase (R180, R184, R195) -/

/-- The state after steps 1 to 6: the timer shadow and the height axis; see `ctlRunWith_of_fullAH`. -/
def heightControlled (p : Config.Params) (s : State) : State :=
  { s with
    ctlLastTicks := if s.ports.ticks.toNat < p.const.reloadThreshold then p.const.reloadValue else s.ports.ticks
    pidH := (heightStep p (cycleDt p s) s).1
    trace := s.trace ++ [.controlRun] ++
      (if s.ports.ticks.toNat < p.const.reloadThreshold then [.timerReload] else []) }

/-- The state after steps 1 to 11: both axes, with the height duty out; see `ctlRunWith_of_fullAY`. -/
def yawControlled (p : Config.Params) (s : State) : State :=
  { heightControlled p s with
    pidY := (yawStep p (cycleDt p s) s).1
    trace := (heightControlled p s).trace ++ [.pub .actH (heightDuty p (cycleDt p s) s)] }

section
variable {p : Config.Params} {s : State}

/-- In its phase and not halted, with time passed, `CTL_RUN` goes on to the actuator mailboxes (R180, R261). -/
theorem ctlRunWith_of_time (hrunning : s.fatalC = false) (hhs : s.hs = .ctl)
    (htime : s.ports.ticks.toNat < s.ctlLastTicks.toNat) :
    ctlRunWith p s =
      publish .control .actH (heightDuty p (cycleDt p s) s) (ctlYaw p (cycleDt p s)) (heightControlled p s) := by
  have helapsed : ¬ elapsed s.ctlLastTicks s.ports.ticks ≤ 0 := by unfold elapsed; omega
  rw [ctlRunWith, if_neg (by simp [hrunning]), if_neg (not_not_intro hhs), if_neg helapsed, noteTicks_eq]
  rfl

/-- A full height mailbox halts the Control Loop at step 7 (R195). -/
theorem ctlRunWith_of_fullAH (hrunning : s.fatalC = false) (hhs : s.hs = .ctl)
    (htime : s.ports.ticks.toNat < s.ctlLastTicks.toNat) (hAH : s.ports.fullAH = true) :
    ctlRunWith p s = raiseFatal .control .mailboxOverflow (some .actH) (heightControlled p s) := by
  rw [ctlRunWith_of_time hrunning hhs htime, publish_of_full]
  exact hAH

/-- A full yaw mailbox halts the Control Loop at step 12 (R195). -/
theorem ctlRunWith_of_fullAY (hrunning : s.fatalC = false) (hhs : s.hs = .ctl)
    (htime : s.ports.ticks.toNat < s.ctlLastTicks.toNat) (hAH : s.ports.fullAH = false)
    (hAY : s.ports.fullAY = true) :
    ctlRunWith p s = raiseFatal .control .mailboxOverflow (some .actY) (yawControlled p s) := by
  rw [ctlRunWith_of_time hrunning hhs htime, publish_of_free, ctlYaw, publish_of_full]
  · rfl
  · exact hAY
  · exact hAH

/-- A reading that did not decrease halts the Control Loop at step 2 (R184). -/
theorem ctlRunWith_of_no_time (hrunning : s.fatalC = false) (hhs : s.hs = .ctl)
    (htime : s.ctlLastTicks.toNat ≤ s.ports.ticks.toNat) :
    ctlRunWith p s = raiseFatal .control .dtNotPositive none (emit .controlRun s) := by
  have helapsed : elapsed s.ctlLastTicks s.ports.ticks ≤ 0 := by unfold elapsed; omega
  rw [ctlRunWith, if_neg (by simp [hrunning]), if_neg (not_not_intro hhs), if_pos helapsed]

end

/-- Settles O36: the halt at step 2, before the timer shadow is written. -/
theorem ctlRunHaltsWhenNoTimePassed : Obligations.CtlRunHaltsWhenNoTimePassed := by
  intro s hrunning hhs htime
  have htrace (a b : Event) : s.trace ++ [a, b] = s.trace ++ [a] ++ [b] := by simp
  rw [htrace]
  exact congrArg Host.Outcome.next (ctlRunWith_of_no_time hrunning hhs htime)

/-- Settles O37: each halting run keeps what was written before its full mailbox. -/
theorem ctlRunHaltsOnAFullMailbox : Obligations.CtlRunHaltsOnAFullMailbox := by
  refine fun s hrunning hhs htime => ⟨fun hAH => ?height, fun hAH hAY => ?yaw⟩
  case height =>
    exact ⟨_, congrArg Host.Outcome.next (ctlRunWith_of_fullAH hrunning hhs htime hAH),
      rfl, rfl, rfl, hhs, rfl, rfl, rfl, rfl, rfl⟩
  case yaw =>
    exact ⟨_, congrArg Host.Outcome.next (ctlRunWith_of_fullAY hrunning hhs htime hAH hAY),
      rfl, rfl, rfl, hhs, rfl, rfl, rfl, rfl, List.append_assoc _ [_] [_]⟩

/-- Settles O35: the completing run's next state, with each axis's step and duty in the source's constants. -/
theorem ctlRunCompletesACycle : Obligations.CtlRunCompletesACycle := by
  intro s hrunning hhs htime hAH hAY
  have hheight := heightStep_params (cycleDt params s) s _ rfl
  have hyaw := yawStep_params (cycleDt params s) s _ rfl
  have hdutyH : heightDuty params (cycleDt params s) s =
      dutyRound params (min (min (max (heightStep params (cycleDt params s) s).2 0) 99) 99) := duty_eq rfl _ 99
  have hdutyY : yawDuty params (cycleDt params s) s =
      dutyRound params (min (min (max (yawStep params (cycleDt params s) s).2 0) 99) 85) := duty_eq rfl _ 85
  refine ⟨cycleDt params s, (heightStep params (cycleDt params s) s).2, (yawStep params (cycleDt params s) s).2,
    cycleHeightErr params s, cycleYawErr params s, cycleParked params s, cycleDt_params s, cycleHeightErr_params s, rfl,
    cycleParked_params s, congrArg Prod.snd hheight, congrArg Prod.snd hyaw, ?next⟩
  refine (congrArg Host.Outcome.next (ctlRunWith_of_free hrunning hhs htime hAH hAY)).trans ?_
  rw [controlled, hdutyH, hdutyY, congrArg Prod.fst hheight, congrArg Prod.fst hyaw]
  rfl

/-! ### What a run shows of each axis (R200) -/

/-- `CTL_RUN` gets as far as its axes: not halted, in its phase, with time passed (R180, R261). -/
def reachesAxes (s : State) : Bool :=
  !s.fatalC && decide (s.hs = .ctl) && decide (s.ports.ticks.toNat < s.ctlLastTicks.toNat)

theorem reachesAxes_iff {s : State} :
    reachesAxes s = true ↔ s.fatalC = false ∧ s.hs = .ctl ∧ s.ports.ticks.toNat < s.ctlLastTicks.toNat := by
  simp [reachesAxes, and_assoc]

/-- What the state `t` after a `CTL_RUN` from `s`, with `new` appended to the trace, shows of each axis, said by what
`s` holds: the timer shadow, the two axes' state, and the duties published (R180); see `axesShown_ctlRunWith`. -/
structure AxesShown (p : Config.Params) (s t : State) (new : List Event) : Prop where
  trace : t.trace = s.trace ++ new
  ticks : t.ctlLastTicks = if reachesAxes s then (heightControlled p s).ctlLastTicks else s.ctlLastTicks
  pidH : t.pidH = if reachesAxes s then (heightStep p (cycleDt p s) s).1 else s.pidH
  pidY : t.pidY = if reachesAxes s && !s.ports.fullAH then (yawStep p (cycleDt p s) s).1 else s.pidY
  pubH : ∀ v, Event.pub .actH v ∈ new ↔
    (reachesAxes s && !s.ports.fullAH) = true ∧ v = heightDuty p (cycleDt p s) s
  pubY : ∀ v, Event.pub .actY v ∈ new ↔
    (reachesAxes s && !s.ports.fullAH && !s.ports.fullAY) = true ∧ v = yawDuty p (cycleDt p s) s

/-- The events of a run are what its trace holds beyond the earlier one. -/
theorem AxesShown.mem_drop {p : Config.Params} {s t : State} {new : List Event} (h : AxesShown p s t new) (e : Event) :
    e ∈ t.trace.drop s.trace.length ↔ e ∈ new := by
  rw [h.trace, List.drop_left]

/-- What `CTL_RUN` appends before its publications (R180 steps 1 and 2). -/
theorem heightControlled_trace (p : Config.Params) (s : State) :
    ∃ opening, (heightControlled p s).trace = s.trace ++ opening ∧ ∀ ch v, Event.pub ch v ∉ opening := by
  refine ⟨_, List.append_assoc .., fun ch v => ?_⟩
  split <;> simp

section
variable {p : Config.Params} {s : State}

/-- A run that does not reach the axes is turned away or halts at step 2, with no register of theirs written (R184). -/
theorem axesShown_of_not_reaches (h : reachesAxes s = false) : ∃ new, AxesShown p s (ctlRunWith p s) new := by
  rcases ctlRunWith_cases p s with ⟨_, e⟩ | ⟨_, _, e⟩ | ⟨_, _, _, e⟩ | ⟨hrunning, hhs, hpos, _⟩ |
    ⟨hrunning, hhs, hpos, _⟩ | ⟨hrunning, hhs, hpos, _⟩
  case inl => rw [e]; exact ⟨[], by constructor <;> simp [h]⟩
  case inr.inl => rw [e]; exact ⟨[], by constructor <;> simp [h]⟩
  case inr.inr.inl =>
    rw [e]
    exact ⟨[.controlRun, .fatal .control .dtNotPositive none], by constructor <;> simp [h]⟩
  all_goals
    have htime : s.ports.ticks.toNat < s.ctlLastTicks.toNat := by unfold elapsed at hpos; omega
    simp [reachesAxes_iff.2 ⟨hrunning, hhs, htime⟩] at h

/-- A run that reaches the axes halts at step 7 or 12, or completes (R180, R195). -/
theorem axesShown_of_reaches (h : reachesAxes s = true) : ∃ new, AxesShown p s (ctlRunWith p s) new := by
  obtain ⟨hrunning, hhs, htime⟩ := reachesAxes_iff.1 h
  obtain ⟨opening, hopening, hnew⟩ := heightControlled_trace p s
  cases hAH : s.ports.fullAH with
  | true =>
    have htrace : (raiseFatal .control .mailboxOverflow (some .actH) (heightControlled p s)).trace =
        s.trace ++ (opening ++ [.fatal .control .mailboxOverflow (some .actH)]) := by simp [hopening]
    rw [ctlRunWith_of_fullAH hrunning hhs htime hAH]
    refine ⟨_, htrace, ?_, ?_, ?_, ?_, ?_⟩ <;> simp [h, hAH, hnew, heightControlled]
  | false =>
    cases hAY : s.ports.fullAY with
    | true =>
      have htrace : (raiseFatal .control .mailboxOverflow (some .actY) (yawControlled p s)).trace =
          s.trace ++ (opening ++ [.pub .actH (heightDuty p (cycleDt p s) s),
            .fatal .control .mailboxOverflow (some .actY)]) := by simp [yawControlled, hopening]
      rw [ctlRunWith_of_fullAY hrunning hhs htime hAH hAY]
      refine ⟨_, htrace, ?_, ?_, ?_, ?_, ?_⟩ <;> simp [h, hAH, hAY, hnew, yawControlled, heightControlled]
    | false =>
      have htrace : (respond 0#16 (controlled p s)).trace =
          s.trace ++ (opening ++ [.pub .actH (heightDuty p (cycleDt p s) s),
            .pub .actY (yawDuty p (cycleDt p s) s)]) := by
        rw [← List.append_assoc, ← hopening]
        rfl
      rw [ctlRunWith_of_free hrunning hhs htime hAH hAY]
      refine ⟨_, htrace, ?_, ?_, ?_, ?_, ?_⟩ <;> simp [h, hAH, hAY, hnew, controlled, heightControlled]

end

theorem axesShown_ctlRunWith (p : Config.Params) (s : State) : ∃ new, AxesShown p s (ctlRunWith p s) new := by
  cases h : reachesAxes s with
  | false => exact axesShown_of_not_reaches h
  | true => exact axesShown_of_reaches h

/-- The yaw axis's step looks at the parked flag, and at its own error and state (R187, R194). -/
theorem yawStep_congr {p : Config.Params} {dt : ℚ} {s s' : State} (hparked : cycleParked p s' = cycleParked p s)
    (herr : cycleYawErr p s' = cycleYawErr p s) (hpid : s'.pidY = s.pidY) : yawStep p dt s' = yawStep p dt s := by
  rw [yawStep, yawStep, hparked, herr, hpid]

/-- Settles O43: what a run shows of the height axis holds nothing of the yaw axis, and what it shows of the yaw axis
holds nothing of the height axis but the parked flag. -/
theorem axesAreIndependent : Obligations.AxesAreIndependent := by
  intro s t u pid ht
  obtain ⟨new, hs⟩ := axesShown_ctlRunWith params s
  rw [Host.Outcome.next.inj ht] at hs
  refine ⟨fun chY tgtY hu => ?height, fun chH tgtH hparked hu => ?yaw⟩
  case height =>
    obtain ⟨new', hs'⟩ := axesShown_ctlRunWith params { s with pidY := pid, chY := chY, tgtY := tgtY }
    rw [Host.Outcome.next.inj hu] at hs'
    have hpub (v : Int) : Event.pub .actH v ∈ new' ↔ Event.pub .actH v ∈ new := (hs'.pubH v).trans (hs.pubH v).symm
    exact ⟨hs'.pidH.trans hs.pidH.symm, hs'.ticks.trans hs.ticks.symm,
      fun v => (hs'.mem_drop _).trans ((hpub v).trans (hs.mem_drop _).symm)⟩
  case yaw =>
    obtain ⟨new', hs'⟩ := axesShown_ctlRunWith params { s with pidH := pid, chH := chH, tgtH := tgtH }
    rw [Host.Outcome.next.inj hu] at hs'
    have hstep (dt : ℚ) : yawStep params dt { s with pidH := pid, chH := chH, tgtH := tgtH } = yawStep params dt s :=
      yawStep_congr hparked rfl rfl
    have hpidY := hs'.pidY
    have hpubY := hs'.pubY
    rw [hstep] at hpidY
    simp only [yawDuty, hstep] at hpubY
    have hpub (v : Int) : Event.pub .actY v ∈ new' ↔ Event.pub .actY v ∈ new := (hpubY v).trans (hs.pubY v).symm
    exact ⟨hpidY.trans hs.pidY.symm, hs'.ticks.trans hs.ticks.symm,
      fun v => (hs'.mem_drop _).trans ((hpub v).trans (hs.mem_drop _).symm)⟩

end Sys2Proof.Machine
end

section
/-! PROOFS. The handoff arbiter: its words and the outcomes of its four operations (R230 to R234), what each operation of
a task's program does to the token and the runs, the token's ring (R240), the stopped pipeline (R239), and the strict
ping-pong of the two tasks' runs (R236). -/

namespace Sys2Proof.Machine

/-! ### A gate that is closed to the task (R231 to R234, R253, R254) -/

section
variable {task : Task} {src dst : Handoff} {s : State}

theorem takeGate_of_halted (h : halted task s = true) : takeGate task src dst s = turnAway .halted s := if_pos h

theorem giveGate_of_halted (h : halted task s = true) : giveGate task src dst s = turnAway .halted s := if_pos h

theorem takeGate_of_closed (hrunning : halted task s = false) (hhs : s.hs ≠ src) :
    takeGate task src dst s = turnAway .blocked s := by
  rw [takeGate, if_neg (by simp [hrunning]), if_neg hhs]

theorem giveGate_of_not_held (hrunning : halted task s = false) (hhs : s.hs ≠ src) :
    giveGate task src dst s = turnAway .protocol s := by
  rw [giveGate, if_neg (by simp [hrunning]), if_neg hhs]

end

/-- Settles O46: a take looks at its task's halt bit first, then at its gate. -/
theorem takesMoveTheTokenOrBlock : Obligations.TakesMoveTheTokenOrBlock :=
  ⟨by decide, by decide, fun s =>
    ⟨fun h => congrArg Host.Outcome.next (takeGate_of_halted (task := .sampler) h),
      fun h hhs => congrArg Host.Outcome.next (takeGate_of_open (task := .sampler) h hhs),
      fun h hhs => congrArg Host.Outcome.next (takeGate_of_closed (task := .sampler) h hhs),
      fun h => congrArg Host.Outcome.next (takeGate_of_halted (task := .control) h),
      fun h hhs => congrArg Host.Outcome.next (takeGate_of_open (task := .control) h hhs),
      fun h hhs => congrArg Host.Outcome.next (takeGate_of_closed (task := .control) h hhs)⟩⟩

/-- Settles O47: a give looks at its task's halt bit first, then at who holds the token. -/
theorem givesMoveTheTokenOrAreRefused : Obligations.GivesMoveTheTokenOrAreRefused :=
  ⟨by decide, by decide, fun s =>
    ⟨fun h => congrArg Host.Outcome.next (giveGate_of_halted (task := .sampler) h),
      fun h hhs => congrArg Host.Outcome.next (giveGate_of_held (task := .sampler) h hhs),
      fun h hhs => congrArg Host.Outcome.next (giveGate_of_not_held (task := .sampler) h hhs),
      fun h => congrArg Host.Outcome.next (giveGate_of_halted (task := .control) h),
      fun h hhs => congrArg Host.Outcome.next (giveGate_of_held (task := .control) h hhs),
      fun h hhs => congrArg Host.Outcome.next (giveGate_of_not_held (task := .control) h hhs)⟩⟩

/-! ### One task's view of the ring (R230): both tasks' programs have one shape -/

/-- The other task of the pair. -/
def Task.other : Task → Task
  | .sampler => .control
  | .control => .sampler

/-- `HS` while the task's gate is available (R34). -/
def Task.gate : Task → Handoff
  | .sampler => .wfs
  | .control => .wfc

/-- `HS` while the task holds the token (R230). -/
def Task.phase : Task → Handoff
  | .sampler => .smp
  | .control => .ctl

/-- The operation at a place of the task's program (R165, R196). -/
def programOp (task : Task) (stage : Stage) (r : RawSample) : Instr :=
  match task with
  | .sampler => samplerOp stage r
  | .control => controlOp stage

/-- The task's place in its program (R70). -/
def placeOf (task : Task) (s : State) : Stage :=
  match task with
  | .sampler => s.samplerAt
  | .control => s.controlAt

@[simp] theorem Task.other_other (task : Task) : task.other.other = task := by cases task <;> rfl

theorem Task.gate_ne_phase (a b : Task) : a.gate ≠ b.phase := by cases a <;> cases b <;> nofun

theorem Task.phase_injective : ∀ {a b : Task}, a.phase = b.phase → a = b
  | .sampler, .sampler, _ => rfl
  | .control, .control, _ => rfl

/-- A task's operation is an operation of one of the two programs (R70). -/
theorem exists_programOp {i : Instr} (hi : isTaskOp i = true) : ∃ task stage r, i = programOp task stage r := by
  cases i with
  | smpRun r => exact ⟨.sampler, .run, r, rfl⟩
  | ctlRun => exact ⟨.control, .run, 0#12, rfl⟩
  | hsTakeS => exact ⟨.sampler, .take, 0#12, rfl⟩
  | hsGiveC => exact ⟨.sampler, .give, 0#12, rfl⟩
  | hsTakeC => exact ⟨.control, .take, 0#12, rfl⟩
  | hsGiveS => exact ⟨.control, .give, 0#12, rfl⟩
  | _ => cases hi

/-- What the operation at a place of a task's program can do to the token and the runs: it is turned away, or it is
performed, by a task that is not halted and has the token where that place needs it; see `exec_programOp`. -/
inductive TaskStep (task : Task) (s t : State) : Stage → Prop
  | away (stage : Stage) (hstatus : t.status ≠ .ok) (hsame : SamePhase s t) : TaskStep task s t stage
  | take (hrunning : halted task s = false) (hhs : s.hs = task.gate) (ht : t = respond 0#16 { s with hs := task.phase }) :
      TaskStep task s t .take
  | run (hrunning : halted task s = false) (hhs : s.hs = task.phase)
      (hruns : taskRuns t.trace = taskRuns s.trace ++ [task]) (hkept : t.hs = s.hs)
      (hend : t.status = .ok ∨ t.status ≠ .ok ∧ halted task t = true) : TaskStep task s t .run
  | give (hrunning : halted task s = false) (hhs : s.hs = task.phase)
      (ht : t = respond 0#16 { s with hs := task.other.gate }) : TaskStep task s t .give

theorem taskStep_samplerRun {r : RawSample} {s t : State} (h : exec (.smpRun r) s = .next t) :
    TaskStep .sampler s t .run := by
  rcases smpRun_phase h with ⟨hstatus, _, hsame⟩ | ⟨hrunning, hhs, hruns, hkept, _, hend⟩
  · exact .away _ hstatus hsame
  · exact .run hrunning hhs hruns hkept (hend.imp And.left fun ⟨hfatal, hhalted⟩ => ⟨by simp [hfatal], hhalted⟩)

theorem taskStep_controlRun {s t : State} (h : exec .ctlRun s = .next t) : TaskStep .control s t .run := by
  rcases ctlRun_phase h with ⟨hstatus, _, hsame⟩ | ⟨hrunning, hhs, hruns, hkept, _, hend⟩
  · exact .away _ hstatus hsame
  · exact .run hrunning hhs hruns hkept (hend.imp And.left fun ⟨hfatal, hhalted⟩ => ⟨by simp [hfatal], hhalted⟩)

/-- Each operation of a task's program is turned away or performed at its place in the ring (R160, R180, R231 to R234). -/
theorem exec_programOp {task : Task} {stage : Stage} {r : RawSample} {s t : State}
    (h : exec (programOp task stage r) s = .next t) : TaskStep task s t stage := by
  cases stage with
  | take =>
    have he : exec (programOp task .take r) s = .next (takeGate task task.gate task.phase s) := by cases task <;> rfl
    obtain rfl := Host.Outcome.next.inj (he.symm.trans h)
    rcases takeGate_cases task task.gate task.phase s with ⟨_, e⟩ | ⟨hrunning, hhs, e⟩ | ⟨_, _, e⟩
    · rw [e]; exact .away _ nofun (samePhase_turnAway _ _)
    · exact .take hrunning hhs e
    · rw [e]; exact .away _ nofun (samePhase_turnAway _ _)
  | run =>
    cases task with
    | sampler => exact taskStep_samplerRun h
    | control => exact taskStep_controlRun h
  | give =>
    have he : exec (programOp task .give r) s = .next (giveGate task task.phase task.other.gate s) := by
      cases task <;> rfl
    obtain rfl := Host.Outcome.next.inj (he.symm.trans h)
    rcases giveGate_cases task task.phase task.other.gate s with ⟨_, e⟩ | ⟨hrunning, hhs, e⟩ | ⟨_, _, e⟩
    · rw [e]; exact .away _ nofun (samePhase_turnAway _ _)
    · exact .give hrunning hhs e
    · rw [e]; exact .away _ nofun (samePhase_turnAway _ _)

/-- An operation leaves the runs, the token and the halt bits alone, or is one of a task's program. -/
theorem exec_samePhase_or_taskStep {i : Instr} {s t : State} (h : exec i s = .next t) :
    SamePhase s t ∨ ∃ task stage r, i = programOp task stage r ∧ TaskStep task s t stage := by
  cases hi : isTaskOp i with
  | false => exact .inl (exec_samePhase hi h)
  | true =>
    obtain ⟨task, stage, r, rfl⟩ := exists_programOp hi
    exact .inr ⟨task, stage, r, rfl, exec_programOp h⟩

/-! ### The token's ring (R230, R240) -/

/-- Settles O50: a run and whatever is turned away keep the token; a take and a give move it along their own arc. -/
theorem tokenMovesOnlyRoundTheRing : Obligations.TokenMovesOnlyRoundTheRing := by
  intro i s t h hne
  rcases exec_samePhase_or_taskStep h with ⟨_, hkept, _⟩ | ⟨task, stage, r, rfl, hstep⟩
  · exact absurd hkept hne
  · cases hstep with
    | away _ _ hsame =>
      obtain ⟨_, hkept, _⟩ := hsame
      exact absurd hkept hne
    | run _ _ _ hkept => exact absurd hkept hne
    | take _ hhs ht => rw [hhs, ht]; cases task <;> simp [programOp, samplerOp, controlOp, Task.gate, Task.phase]
    | give _ hhs ht =>
      rw [hhs, ht]; cases task <;> simp [programOp, samplerOp, controlOp, Task.gate, Task.phase, Task.other]

/-! ### The stopped pipeline (R239) -/

theorem pipelineStopped_iff {s : State} : PipelineStopped s ↔ ∃ task, halted task s = true ∧ s.hs = Task.phase task :=
  ⟨fun h => h.elim (⟨.sampler, ·⟩) (⟨.control, ·⟩), fun
    | ⟨.sampler, h⟩ => .inl h
    | ⟨.control, h⟩ => .inr h⟩

theorem PipelineStopped.of_samePhase {s t : State} (hs : PipelineStopped s) (h : SamePhase s t) : PipelineStopped t := by
  obtain ⟨_, hhs, hfs, hfc⟩ := h
  unfold PipelineStopped
  rwa [hhs, hfs, hfc]

/-- In a stopped pipeline the token is with a halted task: no gate is available, and no other task is in its phase. -/
theorem PipelineStopped.samePhase_of_exec {i : Instr} {s t : State} (hs : PipelineStopped s) (h : exec i s = .next t) :
    SamePhase s t := by
  obtain ⟨holder, hhalted, hholds⟩ := pipelineStopped_iff.1 hs
  have not_held {task : Task} (hrunning : halted task s = false) (hhs : s.hs = task.phase) : False := by
    obtain rfl := Task.phase_injective (hhs.symm.trans hholds)
    cases hrunning.symm.trans hhalted
  rcases exec_samePhase_or_taskStep h with hsame | ⟨task, _, _, _, hstep⟩
  · exact hsame
  · cases hstep with
    | away _ _ hsame => exact hsame
    | take _ hhs => exact absurd (hhs.symm.trans hholds) (task.gate_ne_phase holder)
    | run hrunning hhs => exact (not_held hrunning hhs).elim
    | give hrunning hhs => exact (not_held hrunning hhs).elim

/-- In a stopped pipeline every step but a reset event leaves the runs, the token and the halt bits. -/
theorem PipelineStopped.samePhase_of_step {s t : State} (hs : PipelineStopped s) (hne : s.inputs.head? ≠ some .reset)
    (h : step s = .next t) : SamePhase s t := by
  rcases step_cases h with ⟨_, rfl⟩ | ⟨_, hx, _⟩ | ⟨x, rest, w, i, u, _, _, _, _, he, rfl⟩ |
    ⟨x, rest, w, _, _, _, _, _, rfl⟩
  · exact ⟨rfl, rfl, rfl, rfl⟩
  · exact absurd (by rw [hx]; rfl) hne
  · have hp := samePhase_presented x rest w s
    exact (hp.trans ((hs.of_samePhase hp).samePhase_of_exec he)).trans (samePhase_advanceTask _ _)
  · exact ((samePhase_presented x rest w s).trans (samePhase_turnAway _ _)).trans (samePhase_advanceTask _ _)

/-- Settles O54: the halted holder of the token neither runs nor gives it, and nobody else can take it. -/
theorem pipelineStaysStoppedAfterAHalt : Obligations.PipelineStaysStoppedAfterAHalt := by
  intro s t hs hne h
  have hsame := hs.samePhase_of_step hne h
  have ⟨hruns, hhs, _⟩ := hsame
  exact ⟨hs.of_samePhase hsame, hhs, hruns⟩

/-! ### Strict ping-pong (R236, S7) -/

/-- The task whose run comes next in a strict ping-pong (R236). -/
def nextRun (runs : List Task) : Task := if runs.length % 2 = 0 then .sampler else .control

theorem nextRun_eq_sampler_iff {runs : List Task} : nextRun runs = .sampler ↔ runs.length % 2 = 0 := by
  unfold nextRun; split <;> simp [*]

theorem nextRun_eq_control_iff {runs : List Task} : nextRun runs = .control ↔ runs.length % 2 = 1 := by
  unfold nextRun; split <;> simp [*]; omega

theorem nextRun_append (runs : List Task) (task : Task) : nextRun (runs ++ [task]) = (nextRun runs).other := by
  cases h : nextRun runs with
  | sampler =>
    rw [nextRun_eq_sampler_iff] at h
    exact nextRun_eq_control_iff.2 (by simp; omega)
  | control =>
    rw [nextRun_eq_control_iff] at h
    exact nextRun_eq_sampler_iff.2 (by simp; omega)

/-- A strict ping-pong ends in the run that came next, and is one without it (R236). -/
theorem StrictPingPong.of_append {runs : List Task} {task : Task} (h : StrictPingPong (runs ++ [task])) :
    StrictPingPong runs ∧ task = nextRun runs := by
  refine ⟨fun k hk => ?_, ?_⟩
  · have hk' : k < (runs ++ [task]).length := by simp; omega
    rw [← h k hk', List.getElem_append_left hk]
  · have hlast := h runs.length (by simp)
    rwa [List.getElem_concat_length rfl] at hlast

/-- Of a strict ping-pong, the Sampler has every other run, beginning with the first (R236). -/
theorem StrictPingPong.counts {runs : List Task} (h : StrictPingPong runs) :
    runs.count .sampler = (runs.length + 1) / 2 ∧ runs.count .control = runs.length / 2 := by
  induction runs using List.reverseRecOn with
  | nil => simp
  | append_singleton runs task ih =>
    obtain ⟨hruns, htask⟩ := h.of_append
    obtain ⟨hsampler, hcontrol⟩ := ih hruns
    cases task with
    | sampler =>
      have heven := nextRun_eq_sampler_iff.1 htask.symm
      simp only [List.count_append, List.count_singleton, List.length_append, List.length_singleton, hsampler, hcontrol]
      exact ⟨by simp; omega, by simp; omega⟩
    | control =>
      have hodd := nextRun_eq_control_iff.1 htask.symm
      simp only [List.count_append, List.count_singleton, List.length_append, List.length_singleton, hsampler, hcontrol]
      exact ⟨by simp; omega, by simp; omega⟩

/-! ### The alternation, seen from the task the token belongs to (R236) -/

/-- While a task's gate is available, both tasks stand before their takes and the next run is that task's. -/
theorem alternation_gate_iff {task : Task} {s : State} (hhs : s.hs = task.gate) :
    Alternation s ↔ StrictPingPong (taskRuns s.trace) ∧ placeOf task.other s = .take ∧ placeOf task s = .take ∧
      nextRun (taskRuns s.trace) = task := by
  cases task with
  | sampler => simp [Alternation, hhs, Task.gate, Task.other, placeOf, nextRun_eq_sampler_iff, and_left_comm]
  | control => simp [Alternation, hhs, Task.gate, Task.other, placeOf, nextRun_eq_control_iff]

/-- While a task holds the token, the other stands before its take, and the task is before its run, which is the next
unless it halted the task, or after it. -/
theorem alternation_phase_iff {task : Task} {s : State} (hhs : s.hs = task.phase) :
    Alternation s ↔ StrictPingPong (taskRuns s.trace) ∧ placeOf task.other s = .take ∧
      ((placeOf task s = .run ∧ (nextRun (taskRuns s.trace) = task ∨ halted task s = true)) ∨
        (placeOf task s = .give ∧ nextRun (taskRuns s.trace) = task.other)) := by
  cases task <;>
    simp [Alternation, hhs, Task.phase, Task.other, placeOf, halted, nextRun_eq_sampler_iff, nextRun_eq_control_iff]

theorem Alternation.of_samePhase {s t : State} (hs : Alternation s) (h : SamePhase s t)
    (hplace : ∀ task, placeOf task t = placeOf task s) : Alternation t := by
  obtain ⟨hruns, hhs, hfs, hfc⟩ := h
  have hsampler : t.samplerAt = s.samplerAt := hplace .sampler
  have hcontrol : t.controlAt = s.controlAt := hplace .control
  unfold Alternation
  rwa [hruns, hhs, hfs, hfc, hsampler, hcontrol]

/-! ### Whose turn a stimulus is (R9, R70) -/

theorem exec_placeOf {i : Instr} {s t : State} (h : exec i s = .next t) (task : Task) :
    placeOf task t = placeOf task s := by
  obtain ⟨_, hsampler, hcontrol, _⟩ := exec_agents h
  cases task with
  | sampler => exact hsampler
  | control => exact hcontrol

/-- Nobody's place moves on after an answer other than OK (R237, R253; log 5). -/
theorem advanceTask_of_not_ok {s : State} (h : s.status ≠ .ok) (x : Stimulus) : advanceTask x s = s := by
  cases x <;> simp [advanceTask, h]

/-- A task's place moves on at its own turns only. -/
theorem placeOf_advanceTask_of_ne {x : Stimulus} {task : Task} (hx : x.agent ≠ task.agent) (s : State) :
    placeOf task (advanceTask x s) = placeOf task s := by
  cases task with
  | sampler => exact advanceTask_samplerAt hx s
  | control =>
    cases x with
    | control q => exact absurd rfl hx
    | sampler v q => rw [advanceTask_sampler]; rfl
    | _ => rfl

/-- A task's place moves on at its own turn that is answered OK (R70). -/
theorem placeOf_advanceTask_of_ok {x : Stimulus} {task : Task} {s : State} (hx : x.agent = task.agent)
    (hok : s.status = .ok) : placeOf task (advanceTask x s) = (placeOf task s).next := by
  cases task with
  | sampler =>
    cases x with
    | sampler v q => simp [advanceTask_sampler, placeOf, hok]
    | _ => cases hx
  | control =>
    cases x with
    | control q => simp [advanceTask_control, placeOf, hok]
    | _ => cases hx

theorem agent_ne_other {x : Stimulus} {task : Task} (hx : x.agent = task.agent) : x.agent ≠ task.other.agent := by
  rw [hx]; cases task <;> nofun

/-- A stimulus that leaves the tasks' operations to the tasks' programs presents no operation of theirs, or is the turn of
a task, at its own place (R70, R236). -/
theorem op_of_followsPrograms {x : Stimulus} {s : State} {w : Word} {i : Instr} (hprog : followsPrograms x = true)
    (hw : stimulusWord s x = some w) (hd : decode w = .ok i) :
    (isTaskOp i = false ∧ ∀ task : Task, x.agent ≠ task.agent) ∨
    ∃ task r, x.agent = Task.agent task ∧ i = programOp task (placeOf task s) r := by
  have own {j : Instr} (hj : some (encode j) = some w) : i = j := by
    cases hj
    exact Except.ok.inj (hd.symm.trans (decode_encode j))
  have no_task {a : Agent} (hs : a ≠ .sampler) (hc : a ≠ .control) : ∀ task : Task, a ≠ task.agent
    | .sampler => hs
    | .control => hc
  cases x with
  | command w' q =>
    cases hw
    simp only [followsPrograms, hd] at hprog
    exact .inl ⟨by simpa using hprog, no_task nofun nofun⟩
  | sampler v q => exact .inr ⟨.sampler, v, rfl, own hw⟩
  | control q => exact .inr ⟨.control, 0#12, rfl, own hw⟩
  | phaseEdge b a => rw [own hw]; exact .inl ⟨rfl, no_task nofun nofun⟩
  | refPin => rw [own hw]; exact .inl ⟨rfl, no_task nofun nofun⟩
  | reset => cases hw

/-! ### Every step keeps the alternation (R236) -/

/-- A task's turn keeps the alternation: the token is where its operation needs it only when the run so far is right. -/
theorem Alternation.of_taskTurn {x : Stimulus} {task : Task} {r : RawSample} {s u : State} (hs : Alternation s)
    (hx : x.agent = task.agent) (he : exec (programOp task (placeOf task s) r) s = .next u) :
    Alternation (advanceTask x u) := by
  have hplace := exec_placeOf he
  obtain ⟨hruns, htoken, hfs, hfc⟩ := samePhase_advanceTask x u
  have hother : placeOf task.other (advanceTask x u) = placeOf task.other s :=
    (placeOf_advanceTask_of_ne (agent_ne_other hx) u).trans (hplace _)
  have hown (hok : u.status = .ok) : placeOf task (advanceTask x u) = (placeOf task s).next := by
    rw [placeOf_advanceTask_of_ok hx hok, hplace]
  generalize hstage : placeOf task s = stage at he hown
  cases exec_programOp he with
  | away _ hstatus hsame =>
    rw [advanceTask_of_not_ok hstatus]
    exact hs.of_samePhase hsame hplace
  | take _ hhs ht =>
    subst ht
    obtain ⟨hpp, hwaits, _, hnext⟩ := (alternation_gate_iff hhs).1 hs
    rw [alternation_phase_iff htoken, hruns]
    exact ⟨hpp, hother.trans hwaits, .inl ⟨hown rfl, .inl hnext⟩⟩
  | run hrunning hhs hrun hkept hend =>
    obtain ⟨hpp, hwaits, ⟨_, hnext⟩ | ⟨hgive, _⟩⟩ := (alternation_phase_iff hhs).1 hs
    · have hturn : nextRun (taskRuns s.trace) = task := hnext.resolve_right (by simp [hrunning])
      have hpp' : StrictPingPong (taskRuns s.trace ++ [task]) := strictPingPong_append hpp hturn.symm
      rw [alternation_phase_iff (htoken.trans (hkept.trans hhs)), hruns, hrun, nextRun_append, hturn]
      refine ⟨hpp', hother.trans hwaits, ?_⟩
      rcases hend with hok | ⟨hnot, hhalted⟩
      · exact .inr ⟨hown hok, rfl⟩
      · rw [advanceTask_of_not_ok hnot]
        exact .inl ⟨(hplace task).trans hstage, .inr hhalted⟩
    · cases hgive.symm.trans hstage
  | give _ hhs ht =>
    subst ht
    obtain ⟨hpp, hwaits, ⟨hrun, _⟩ | ⟨_, hnext⟩⟩ := (alternation_phase_iff hhs).1 hs
    · cases hrun.symm.trans hstage
    · rw [alternation_gate_iff htoken, hruns, Task.other_other]
      exact ⟨hpp, hown rfl, hother.trans hwaits, hnext⟩

/-- A step takes the first stimulus off the list, if there is one (R10). -/
theorem step_inputs {s t : State} (h : step s = .next t) : t.inputs = s.inputs.tail := by
  rcases step_cases h with ⟨hnil, rfl⟩ | ⟨rest, hx, rfl⟩ | ⟨x, rest, w, i, u, hx, _, _, _, he, rfl⟩ |
    ⟨x, rest, w, _, hx, _, _, _, rfl⟩
  · rw [hnil]; rfl
  · rw [hx]; rfl
  · obtain ⟨hinputs, _⟩ := exec_agents he
    rw [advanceTask_eq, hx]
    exact hinputs
  · rw [advanceTask_eq, hx]; rfl

/-- A step on a stimulus that leaves the tasks' operations to the tasks' programs keeps the alternation. -/
theorem Alternation.of_step {s t : State} (hs : Alternation s) (hprog : ∀ x ∈ s.inputs, followsPrograms x = true)
    (h : step s = .next t) : Alternation t := by
  rcases step_cases h with ⟨_, rfl⟩ | ⟨_, _, rfl⟩ | ⟨x, rest, w, i, u, hx, _, hw, hd, he, rfl⟩ |
    ⟨x, rest, w, _, _, _, _, _, rfl⟩
  case inl => exact hs
  case inr.inl => exact alternation_reset
  case inr.inr.inl =>
    have hfollows : followsPrograms x = true := hprog x (by rw [hx]; exact List.mem_cons_self)
    have hpresented : Alternation (presented x rest w s) := hs
    rcases op_of_followsPrograms hfollows hw hd with ⟨hi, hno⟩ | ⟨task, r, hturn, rfl⟩
    · exact hpresented.of_samePhase ((exec_samePhase hi he).trans (samePhase_advanceTask _ _))
        fun task => (placeOf_advanceTask_of_ne (hno task) u).trans (exec_placeOf he task)
    · exact hpresented.of_taskTurn hturn he
  case inr.inr.inr =>
    have hrefused : (turnAway .illegalCmd (presented x rest w s)).status ≠ .ok := nofun
    rw [advanceTask_of_not_ok hrefused]
    exact hs

/-- Settles O51: the alternation outlasts every turn, and the runs of a strict ping-pong split evenly, the Sampler first. -/
theorem tasksAlternateStrictly : Obligations.TasksAlternateStrictly := by
  refine ⟨fun s t hs hprog h => ⟨hs.of_step hprog h, fun x hx => ?inputs⟩, fun s ⟨hpp, _⟩ => ?counts⟩
  case inputs =>
    rw [step_inputs h] at hx
    exact hprog x (List.mem_of_mem_tail hx)
  case counts =>
    obtain ⟨hsampler, hcontrol⟩ := hpp.counts
    rw [hsampler, hcontrol]
    omega

end Sys2Proof.Machine
end


section
/-! PROOFS. Exceptions and refusals: the outcomes of an operation (R251 to R256, R272), the fault records (R255, R239,
R257), the refusals of a task's program (R253, R254), interrupts (R260, R262), and that every step answers (93 part 1). -/

namespace Sys2Proof.Machine

/-! ### The outcomes of an operation (R251 to R256, R272) -/

/-- The cause code of the task's halt record (R35). -/
def causeOf (task : Task) (s : State) : BitVec 4 :=
  match task with
  | .sampler => s.fatalCauseS
  | .control => s.fatalCauseC

/-- The cause codes of the task (R255). -/
def haltCodes : Task → List (BitVec 4)
  | .sampler => [1#4, 2#4]
  | .control => [3#4, 4#4, 5#4]

/-- The task's halt bit and its cause code are the same in both states. -/
def SameRecord (task : Task) (s t : State) : Prop := halted task t = halted task s ∧ causeOf task t = causeOf task s

theorem sameRecord_of_haltRegs {task : Task} {s t : State} (h : ∀ r ∈ haltRegs task, r.same s t) :
    SameRecord task s t := by
  refine ⟨halted_of_same h, ?_⟩
  cases task with
  | sampler => exact h .fatalCauseS (by simp [haltRegs])
  | control => exact h .fatalCauseC (by simp [haltRegs])

theorem SameRegs.sameRecord {s t : State} (h : SameRegs s t) (task : Task) : SameRecord task s t :=
  sameRecord_of_haltRegs fun r _ => h r

/-- A fatal halt writes its own task's record (R256). -/
theorem halted_raiseFatal (task : Task) (c : Cause) (ch : Option Channel) (s : State) :
    halted task (raiseFatal task c ch s) = true := by cases task <;> rfl

theorem causeOf_raiseFatal (task : Task) (c : Cause) (ch : Option Channel) (s : State) :
    causeOf task (raiseFatal task c ch s) = causeCode c ch := by cases task <;> rfl

/-- A fatal halt leaves the other task's record (R256). -/
theorem sameRecord_raiseFatal_of_ne {task holder : Task} (hne : task ≠ holder) (c : Cause) (ch : Option Channel)
    (s : State) : SameRecord task s (raiseFatal holder c ch s) := by
  cases task <;> cases holder
  · exact absurd rfl hne
  · exact ⟨rfl, rfl⟩
  · exact ⟨rfl, rfl⟩
  · exact absurd rfl hne

/-- The three outcomes of an operation: it is turned away, it completes and leaves both halt records, or it halts the
task that holds the token with a cause of that task's; see `exec_concluded`. -/
inductive Concluded (s : State) : State → Prop
  | away (reason : Status) : Concluded s (turnAway reason s)
  | done {t : State} (hok : t.status = .ok) (hrecord : ∀ task, SameRecord task s t) : Concluded s t
  | halts {task : Task} {c : Cause} {ch : Option Channel} {u : State} (hcode : causeCode c ch ∈ haltCodes task)
      (hholds : s.hs = task.phase) (hkept : u.hs = s.hs) (hrecord : ∀ task, SameRecord task s u) :
      Concluded s (raiseFatal task c ch u)

theorem concluded_smpRunWith (p : Config.Params) (v : RawSample) (s : State) : Concluded s (smpRunWith p v s) := by
  have hrecord : ∀ task, SameRecord task s (smpWork p v (emit .samplerRun s)) := by
    intro task
    cases task <;> simp [SameRecord, halted, causeOf]
  rcases smpRunWith_cases p v s with ⟨_, e⟩ | ⟨_, _, e⟩ | ⟨_, hhs, _, e⟩ | ⟨_, hhs, _, _, e⟩ | ⟨_, _, _, _, e⟩ <;> rw [e]
  · exact .away _
  · exact .away _
  · exact .halts (by decide) hhs (by simp) hrecord
  · exact .halts (by decide) hhs (by simp) hrecord
  · exact .done rfl hrecord

theorem concluded_ctlRunWith (p : Config.Params) (s : State) : Concluded s (ctlRunWith p s) := by
  have hrecord : ∀ task, SameRecord task s (noteTicks p (emit .controlRun s)) := by
    intro task
    cases task <;> simp [SameRecord, halted, causeOf]
  rcases ctlRunWith_cases p s with ⟨_, e⟩ | ⟨_, _, e⟩ | ⟨_, hhs, _, e⟩ | ⟨_, hhs, _, _, e⟩ | ⟨_, hhs, _, _, _, e⟩ |
    ⟨_, _, _, _, _, e⟩ <;> rw [e]
  · exact .away _
  · exact .away _
  · exact .halts (by decide) hhs rfl (sameRegs_emit _ s).sameRecord
  · exact .halts (by decide) hhs (by simp) hrecord
  · exact .halts (by decide) hhs (by simp) hrecord
  · exact .done rfl hrecord

/-- An operation that is no task's run is turned away or answers OK. -/
theorem exec_away_or_ok {i : Instr} {s t : State} (hsmp : ∀ v, i ≠ .smpRun v) (hctl : i ≠ .ctlRun)
    (h : exec i s = .next t) : (∃ reason, t = turnAway reason s) ∨ t.status = .ok := by
  have take (task : Task) (src dst : Handoff) :
      (∃ reason, takeGate task src dst s = turnAway reason s) ∨ (takeGate task src dst s).status = .ok := by
    rcases takeGate_cases task src dst s with ⟨_, e⟩ | ⟨_, _, e⟩ | ⟨_, _, e⟩ <;> rw [e]
    · exact .inl ⟨_, rfl⟩
    · exact .inr rfl
    · exact .inl ⟨_, rfl⟩
  have give (task : Task) (src dst : Handoff) :
      (∃ reason, giveGate task src dst s = turnAway reason s) ∨ (giveGate task src dst s).status = .ok := by
    rcases giveGate_cases task src dst s with ⟨_, e⟩ | ⟨_, _, e⟩ | ⟨_, _, e⟩ <;> rw [e]
    · exact .inl ⟨_, rfl⟩
    · exact .inr rfl
    · exact .inl ⟨_, rfl⟩
  cases i with
  | rfRead r k =>
    simp only [exec, execRfRead] at h
    split at h <;> cases h
    · exact .inl ⟨_, rfl⟩
    · exact .inr rfl
  | setTgtH x =>
    simp only [exec, execSetTgtH] at h
    split at h <;> cases h
    · exact .inr rfl
    · exact .inl ⟨_, rfl⟩
  | setTgtY y =>
    simp only [exec, execSetTgtY] at h
    split at h <;> cases h
    · exact .inr rfl
    · exact .inl ⟨_, rfl⟩
  | smpRun v => exact absurd rfl (hsmp v)
  | ctlRun => exact absurd rfl hctl
  | hsTakeS => cases h; exact take _ _ _
  | hsGiveC => cases h; exact give _ _ _
  | hsTakeC => cases h; exact take _ _ _
  | hsGiveS => cases h; exact give _ _ _
  | _ => cases h; exact .inr rfl

/-- Every operation has one of the three outcomes; only a task's run can halt (R251 to R256). -/
theorem exec_concluded {i : Instr} {s t : State} (h : exec i s = .next t) : Concluded s t := by
  by_cases hsmp : ∃ v, i = .smpRun v
  · obtain ⟨v, rfl⟩ := hsmp
    cases h
    exact concluded_smpRunWith _ _ _
  by_cases hctl : i = .ctlRun
  · subst hctl
    cases h
    exact concluded_ctlRunWith _ _
  have hne : ∀ v, i ≠ .smpRun v := fun v hv => hsmp ⟨v, hv⟩
  rcases exec_away_or_ok hne hctl h with ⟨reason, rfl⟩ | hok
  · exact .away reason
  · refine .done hok fun task => sameRecord_of_haltRegs fun r hr => exec_writesOnly h r ?_
    cases task with
    | sampler => exact not_mem_writes_of_ne_smpRun hne r (List.mem_cons_of_mem _ (List.mem_cons_of_mem _ hr))
    | control => exact not_mem_writes_of_ne_ctlRun hctl r (List.mem_cons_of_mem _ hr)

/-- Settles O13: of the three outcomes, one answers OK and one FATAL, and the third is `turnAway`. -/
theorem turnedAwayOperationsChangeNothing : Obligations.TurnedAwayOperationsChangeNothing := by
  intro i s t h hok hfatal
  cases exec_concluded h with
  | away reason => rfl
  | done hdone => exact absurd hdone hok
  | halts => exact absurd (raiseFatal_status ..) hfatal

/-! ### The fault records (R255, R239, R257) -/

/-- The task's part of `FaultRecordsAgree`: no cause without a halt, and a halt has a cause of the task's and the token. -/
structure RecordAgrees (task : Task) (s : State) : Prop where
  running : halted task s = false → causeOf task s = 0#4
  cause : halted task s = true → causeOf task s ∈ haltCodes task
  holds : halted task s = true → s.hs = task.phase

theorem faultRecordsAgree_iff {s : State} : FaultRecordsAgree s ↔ ∀ task, RecordAgrees task s := by
  refine ⟨fun ⟨runS, causeS, runC, causeC, holdS, holdC⟩ task => ?_, fun h => ?_⟩
  · cases task with
    | sampler => exact ⟨runS, fun hs => by simpa [haltCodes, causeOf] using causeS hs, holdS⟩
    | control => exact ⟨runC, fun hs => by simpa [haltCodes, causeOf] using causeC hs, holdC⟩
  · obtain ⟨runS, causeS, holdS⟩ := h .sampler
    obtain ⟨runC, causeC, holdC⟩ := h .control
    exact ⟨runS, fun hs => by simpa [haltCodes, causeOf] using causeS hs, runC,
      fun hs => by simpa [haltCodes, causeOf] using causeC hs, holdS, holdC⟩

/-- A record that does not change still agrees, if the token stays where the record needs it. -/
theorem RecordAgrees.of_sameRecord {task : Task} {s t : State} (hs : RecordAgrees task s) (h : SameRecord task s t)
    (hkept : halted task s = true → t.hs = s.hs) : RecordAgrees task t := by
  obtain ⟨hhalted, hcause⟩ := h
  constructor <;> rw [hhalted]
  · rw [hcause]; exact hs.running
  · rw [hcause]; exact hs.cause
  · exact fun h => (hkept h).trans (hs.holds h)

/-- A halted task that holds the token keeps it (R239), and a new halt is the token's holder's, with a cause of its own. -/
theorem exec_keeps_recordAgrees {task : Task} {i : Instr} {s t : State} (h : exec i s = .next t)
    (hs : RecordAgrees task s) : RecordAgrees task t := by
  have hkept (hhalted : halted task s = true) : t.hs = s.hs := by
    have hstopped : PipelineStopped s := pipelineStopped_iff.2 ⟨task, hhalted, hs.holds hhalted⟩
    obtain ⟨_, hhs, _⟩ := hstopped.samePhase_of_exec h
    exact hhs
  cases exec_concluded h with
  | away reason => exact hs.of_sameRecord ((sameRegs_turnAway reason s).sameRecord task) hkept
  | done _ hrecord => exact hs.of_sameRecord (hrecord task) hkept
  | @halts holder c ch u hcode hholds huhs hrecord =>
    by_cases hne : task = holder
    · subst hne
      refine ⟨fun hrunning => ?_, fun _ => ?_, fun _ => ?_⟩
      · cases (halted_raiseFatal ..).symm.trans hrunning
      · rwa [causeOf_raiseFatal]
      · rw [raiseFatal_hs, huhs, hholds]
    · obtain ⟨hhalted, hcause⟩ := hrecord task
      obtain ⟨hhalted', hcause'⟩ := sameRecord_raiseFatal_of_ne hne c ch u
      exact hs.of_sameRecord ⟨hhalted'.trans hhalted, hcause'.trans hcause⟩ hkept

/-- Settles O55: the reset state's records agree, and every operation keeps each task's record in agreement. -/
theorem faultRecordsStayConsistent : Obligations.FaultRecordsStayConsistent := by
  intro s t hs h
  rw [faultRecordsAgree_iff] at hs ⊢
  exact fun task => step_keeps (fun hst hs => hs.of_sameRecord (hst.sameRecord task) fun _ => hst .hs)
    (faultRecordsAgree_iff.1 faultRecordsAgree_reset task) exec_keeps_recordAgrees h (hs task)

/-! ### What refuses an operation of a task's program (R253, R254, R261) -/

theorem exec_programOp_take (task : Task) (r : RawSample) (s : State) :
    exec (programOp task .take r) s = .next (takeGate task task.gate task.phase s) := by cases task <;> rfl

theorem exec_programOp_give (task : Task) (r : RawSample) (s : State) :
    exec (programOp task .give r) s = .next (giveGate task task.phase task.other.gate s) := by cases task <;> rfl

/-- A halted task's operations are refused at every place of its program (R253). -/
theorem exec_programOp_of_halted {task : Task} {s : State} (h : halted task s = true) (stage : Stage) (r : RawSample) :
    exec (programOp task stage r) s = .next (turnAway .halted s) := by
  cases stage with
  | take => rw [exec_programOp_take, takeGate_of_halted h]
  | run => cases task <;> exact congrArg Host.Outcome.next (if_pos h)
  | give => rw [exec_programOp_give, giveGate_of_halted h]

/-- A run or a give of a task that is not halted and does not hold the token is a protocol violation (R254, R261). -/
theorem exec_programOp_of_not_held {task : Task} {stage : Stage} {s : State} (hrunning : halted task s = false)
    (hhs : s.hs ≠ task.phase) (hstage : stage ≠ .take) (r : RawSample) :
    exec (programOp task stage r) s = .next (turnAway .protocol s) := by
  cases stage with
  | take => exact absurd rfl hstage
  | run => cases task <;> exact congrArg Host.Outcome.next ((if_neg (Bool.eq_false_iff.1 hrunning)).trans (if_pos hhs))
  | give => rw [exec_programOp_give, giveGate_of_not_held hrunning hhs]

/-- Settles O49: the three operations are the three places of the task's program. -/
theorem haltedTasksOperationsAreRefused : Obligations.HaltedTasksOperationsAreRefused := by
  refine fun s => ⟨fun h i hi => ?sampler, fun h i hi => ?control⟩
  case sampler =>
    have refused := exec_programOp_of_halted (task := .sampler) h
    rcases hi with rfl | ⟨r, rfl⟩ | rfl
    · exact refused .take 0#12
    · exact refused .run r
    · exact refused .give 0#12
  case control =>
    have refused := exec_programOp_of_halted (task := .control) h
    rcases hi with rfl | rfl | rfl
    · exact refused .take 0#12
    · exact refused .run 0#12
    · exact refused .give 0#12

/-- Settles O48: the two operations are the run and the give of the task's program. -/
theorem operationsOutsideTheirPhaseAreRefused : Obligations.OperationsOutsideTheirPhaseAreRefused := by
  refine fun s => ⟨fun hrunning hhs i hi => ?sampler, fun hrunning hhs i hi => ?control⟩
  case sampler =>
    rcases hi with ⟨r, rfl⟩ | rfl
    · exact exec_programOp_of_not_held (task := .sampler) (stage := .run) hrunning hhs nofun r
    · exact exec_programOp_of_not_held (task := .sampler) (stage := .give) hrunning hhs nofun 0#12
  case control =>
    rcases hi with rfl | rfl
    · exact exec_programOp_of_not_held (task := .control) (stage := .run) hrunning hhs nofun 0#12
    · exact exec_programOp_of_not_held (task := .control) (stage := .give) hrunning hhs nofun 0#12

/-! ### The programs keep the protocol (R254) -/

/-- A run is refused to a task that is halted or does not hold the token; any other completes or halts (R160, R180). -/
theorem exec_programOp_run {task : Task} {r : RawSample} {s t : State} (h : exec (programOp task .run r) s = .next t) :
    (halted task s = true ∨ s.hs ≠ task.phase) ∨ t.status = .ok ∨ t.status = .fatal := by
  cases task with
  | sampler =>
    exact (smpRun_phase h).imp (fun ⟨_, haway, _⟩ => haway) fun ⟨_, _, _, _, _, hend⟩ => hend.imp And.left And.left
  | control =>
    exact (ctlRun_phase h).imp (fun ⟨_, haway, _⟩ => haway) fun ⟨_, _, _, _, _, hend⟩ => hend.imp And.left And.left

/-- A task that holds the token wherever its program needs it is never answered `ProtocolViolation` (R254). -/
theorem exec_programOp_ne_protocol {task : Task} {stage : Stage} {r : RawSample} {s t : State}
    (hholds : stage ≠ .take → s.hs = task.phase) (h : exec (programOp task stage r) s = .next t) :
    t.status ≠ .protocol := by
  cases hrunning : halted task s with
  | true =>
    obtain rfl := Host.Outcome.next.inj ((exec_programOp_of_halted hrunning stage r).symm.trans h)
    nofun
  | false =>
    cases stage with
    | take =>
      obtain rfl := Host.Outcome.next.inj ((exec_programOp_take task r s).symm.trans h)
      rcases takeGate_cases task task.gate task.phase s with ⟨_, e⟩ | ⟨_, _, e⟩ | ⟨_, _, e⟩ <;> rw [e] <;> nofun
    | run =>
      rcases exec_programOp_run h with (hhalted | hne) | hok | hfatal
      · cases hrunning.symm.trans hhalted
      · exact absurd (hholds nofun) hne
      · simp [hok]
      · simp [hfatal]
    | give =>
      obtain rfl := Host.Outcome.next.inj ((exec_programOp_give task r s).symm.trans h)
      rw [giveGate_of_held hrunning (hholds nofun)]
      nofun

/-- The token is at a task's gate or with a task (R230). -/
theorem exists_gate_or_phase : ∀ token : Handoff, ∃ task : Task, token = task.gate ∨ token = task.phase
  | .wfs => ⟨.sampler, .inl rfl⟩
  | .smp => ⟨.sampler, .inr rfl⟩
  | .wfc => ⟨.control, .inl rfl⟩
  | .ctl => ⟨.control, .inr rfl⟩

theorem Task.eq_or_eq_other (a b : Task) : a = b ∨ a = b.other := by cases a <;> cases b <;> simp [Task.other]

/-- In the strict ping-pong a task past its take holds the token (R236). -/
theorem Alternation.holds_token {task : Task} {s : State} (hs : Alternation s) (hplace : placeOf task s ≠ .take) :
    s.hs = task.phase := by
  obtain ⟨holder, hgate | hphase⟩ := exists_gate_or_phase s.hs
  · obtain ⟨_, hother, hholder, _⟩ := (alternation_gate_iff hgate).1 hs
    rcases task.eq_or_eq_other holder with rfl | rfl
    · exact absurd hholder hplace
    · exact absurd hother hplace
  · obtain ⟨_, hother, _⟩ := (alternation_phase_iff hphase).1 hs
    rcases task.eq_or_eq_other holder with rfl | rfl
    · exact hphase
    · exact absurd hother hplace

/-- A task's turn is its own program's (R70). -/
theorem followsPrograms_of_taskTurn {x : Stimulus} {task : Task} (hx : x.agent = task.agent) :
    followsPrograms x = true := by
  cases x with
  | command w q => cases task <;> cases hx
  | _ => rfl

/-- What a step answers does not depend on whose place moves on. -/
theorem advanceTask_status (x : Stimulus) (s : State) : (advanceTask x s).status = s.status := by rw [advanceTask_eq]

/-- Settles O52: a turn performs the operation at the task's place, and past its take the task holds the token. -/
theorem programsNeverViolateTheProtocol : Obligations.ProgramsNeverViolateTheProtocol := by
  intro x rest s t hs hx hagent h
  obtain ⟨task, hturn⟩ : ∃ task : Task, x.agent = task.agent := hagent.elim (⟨.sampler, ·⟩) (⟨.control, ·⟩)
  rcases step_cases h with ⟨hnil, _⟩ | ⟨_, hreset, _⟩ | ⟨y, rest', w, i, u, hy, _, hw, hd, he, rfl⟩ |
    ⟨y, rest', w, _, _, _, _, _, rfl⟩
  case inl => cases hx.symm.trans hnil
  case inr.inl =>
    cases hx.symm.trans hreset
    cases task <;> cases hturn
  case inr.inr.inl =>
    cases hx.symm.trans hy
    rw [advanceTask_status]
    rcases op_of_followsPrograms (followsPrograms_of_taskTurn hturn) hw hd with ⟨_, hno⟩ | ⟨performer, r, _, rfl⟩
    · exact absurd hturn (hno task)
    · exact exec_programOp_ne_protocol (s := presented x rest w s) hs.holds_token he
  case inr.inr.inr => rw [advanceTask_status]; nofun

/-! ### Interrupts (R260, R262) -/

/-- The decoder's registers (R23 to R25). -/
def decoderRegs : List Reg := [.qdCnt, .qdPa, .qdPb, .qdRefEn]

/-- A stimulus that moves no task on, with an operation that always answers OK and has only the decoder's rows of R38, is
serviced in every state and leaves every other register (R260). -/
theorem step_interrupt {x : Stimulus} {rest : List Stimulus} {i : Instr} {s : State} (hx : s.inputs = x :: rest)
    (hw : stimulusWord s x = some (encode i)) (hplaces : ∀ u, advanceTask x u = u)
    (hok : ∀ {u v}, exec i u = .next v → v.status = .ok) (hwrites : writes i ⊆ decoderRegs) :
    ∃ t, step s = .next t ∧ t.inputs = rest ∧ t.samplerAt = s.samplerAt ∧ t.controlAt = s.controlAt ∧
      t.status = .ok ∧ WritesOnly decoderRegs s t := by
  obtain ⟨t, he⟩ := exec_eq_next i (presented x rest (encode i) s)
  have hstep : step s = .next t := by rw [step_of_encode hx hw he, hplaces]
  obtain ⟨hinputs, hsampler, hcontrol, _⟩ := exec_agents he
  exact ⟨t, hstep, hinputs, hsampler, hcontrol, hok he,
    (sameRegs_presented _ _ _ _).writesOnly.trans ((exec_writesOnly he).mono hwrites)⟩

/-- Settles O28: the two interrupts' operations have no refusal, and R38 lists only the decoder's registers for them. -/
theorem interruptsTouchOnlyTheDecoder : Obligations.InterruptsTouchOnlyTheDecoder := by
  rintro x rest s (⟨b, a, rfl⟩ | rfl) hx
  · exact step_interrupt hx rfl (fun _ => rfl) (fun h => by cases h; rfl) (by simp [writes, decoderRegs])
  · exact step_interrupt hx rfl (fun _ => rfl) (fun h => by cases h; rfl) (by simp [writes, decoderRegs])

/-- Settles O29: neither operation reads a register the other writes, and both answer OK with `RESP` 0. -/
theorem edgeAndReferenceCommute : Obligations.EdgeAndReferenceCommute := by
  intro b a s
  obtain ⟨_, hcases⟩ := qdRefIsOneShot
  obtain ⟨enabled, disabled⟩ := hcases s
  obtain ⟨enabled', disabled'⟩ := hcases (qdEdgeWith params b a s)
  cases hen : s.qdRefEn with
  | true => exact ⟨_, _, _, rfl, enabled' hen, enabled hen, rfl⟩
  | false => exact ⟨_, _, _, rfl, disabled' hen, disabled hen, rfl⟩

/-! ### Every step answers (93 part 1) -/

/-- Settles O9: with nothing presented the step is idle, and every stimulus is served. -/
theorem everyStepAnswersANextState : Obligations.EveryStepAnswersANextState := by
  refine ⟨exec_eq_next, fun s => ?step⟩
  rw [step, stepBy]
  split
  · exact ⟨_, rfl⟩
  · exact serveBy_exec_eq_next params _ _

end Sys2Proof.Machine
end

section
/-! PROOFS. The reset event (R280, R282), and that the reference pin's enable bit is invisible to every operation but
`QD_REF` (R295): each such operation commutes with setting it. -/

namespace Sys2Proof.Machine

/-! ### The reset event (R280) -/

/-- A reset event is taken, and what it leaves is the reset state but for the ports and the list (R280, R282; log 4). -/
theorem step_of_reset {s : State} {rest : List Stimulus} (hx : s.inputs = .reset :: rest) :
    step s = .next { State.reset with
      cmd := s.cmd, ports := s.ports, status := s.status, resp := s.resp, inputs := rest } := by
  obtain ⟨_, hstep⟩ := everyStepAnswersANextState
  obtain ⟨t, ht⟩ := hstep s
  have hstepWith : stepWith params s = .next t := by rw [stepWith_params, ht]
  rw [ht, stepWith_reset hx hstepWith, resetFor_params]

/-- Settles O10: the reset state's own registers and trace, and the ports of the state before. -/
theorem resetEventSetsEveryRegister : Obligations.ResetEventSetsEveryRegister :=
  fun _ _ hx => ⟨_, step_of_reset hx, fun r => by cases r <;> rfl, rfl, rfl, rfl, rfl, rfl, rfl⟩

/-! ### Operations that commute with setting the enable bit (R25, R295) -/

/-- The state with the enable bit set to `b`. -/
def setRefEn (b : Bool) (s : State) : State := { s with qdRefEn := b }

/-- `f` neither reads nor writes the enable bit: setting the bit before `f` or after it is the same. -/
def RefEnBlind (f : State → State) : Prop := ∀ b, Function.Commute f (setRefEn b)

section
variable {f g : State → State}

/-- What commutes with setting the bit keeps it: its value before could have been set after. -/
theorem RefEnBlind.qdRefEn_eq (hf : RefEnBlind f) (s : State) : (f s).qdRefEn = s.qdRefEn :=
  calc (f s).qdRefEn = (f (setRefEn s.qdRefEn s)).qdRefEn := rfl
    _ = (setRefEn s.qdRefEn (f s)).qdRefEn := by rw [hf s.qdRefEn s]
    _ = s.qdRefEn := rfl

theorem RefEnBlind.comp (hf : RefEnBlind f) (hg : RefEnBlind g) : RefEnBlind (f ∘ g) :=
  fun b => (hf b).comp_left (hg b)

/-- A choice is blind to the bit when its test and both branches are. -/
theorem RefEnBlind.ite {c : State → Prop} [DecidablePred c] (hc : ∀ b s, c (setRefEn b s) ↔ c s) (hf : RefEnBlind f)
    (hg : RefEnBlind g) : RefEnBlind fun s => if c s then f s else g s := by
  intro b s
  by_cases h : c s
  · simp only [hc, h, if_true, hf b s]
  · simp only [hc, h, if_false, hg b s]

end

/-! ### The state operations (R8, R256, R258) -/

theorem refEnBlind_emit (e : Event) : RefEnBlind (emit e) := fun _ _ => rfl

theorem refEnBlind_respond (v : Resp) : RefEnBlind (respond v) := fun _ _ => rfl

theorem refEnBlind_turnAway (reason : Status) : RefEnBlind (turnAway reason) := fun _ _ => rfl

theorem refEnBlind_hs (x : Handoff) : RefEnBlind fun s => { s with hs := x } := fun _ _ => rfl

theorem refEnBlind_raiseFatal (task : Task) (c : Cause) (ch : Option Channel) :
    RefEnBlind (raiseFatal task c ch) := fun _ _ => by cases task <;> rfl

theorem refEnBlind_pushSample (i : Ring) (v : RawSample) : RefEnBlind (pushSample i v) :=
  fun _ _ => by cases i <;> rfl

theorem halted_setRefEn (task : Task) (b : Bool) (s : State) : halted task (setRefEn b s) = halted task s := by
  cases task <;> rfl

theorem portFull_setRefEn (ch : Channel) (b : Bool) (s : State) : portFull ch (setRefEn b s) = portFull ch s := by
  cases ch <;> rfl

/-- A publication looks at its mailbox's port, and goes on with what follows the delivery (R258). -/
theorem refEnBlind_publish (task : Task) (ch : Channel) (v : Int) {k : State → State} (hk : RefEnBlind k) :
    RefEnBlind (publish task ch v k) :=
  .ite (c := fun s => portFull ch s = true) (fun b s => by rw [portFull_setRefEn]) (refEnBlind_raiseFatal _ _ _)
    (hk.comp (refEnBlind_emit _))

/-- What the two gate operations share: they look at the task's halt bit and at the token (R231 to R234). -/
theorem refEnBlind_gate (task : Task) (src dst : Handoff) (closed : Status) :
    RefEnBlind fun s => if halted task s then turnAway .halted s
      else if s.hs = src then respond 0#16 { s with hs := dst } else turnAway closed s :=
  .ite (c := fun s => halted task s = true) (fun b s => by rw [halted_setRefEn]) (refEnBlind_turnAway _)
    (.ite (c := fun s => s.hs = src) (fun _ _ => Iff.rfl) ((refEnBlind_respond _).comp (refEnBlind_hs dst))
      (refEnBlind_turnAway _))

theorem refEnBlind_takeGate (task : Task) (src dst : Handoff) : RefEnBlind (takeGate task src dst) :=
  refEnBlind_gate task src dst .blocked

theorem refEnBlind_giveGate (task : Task) (src dst : Handoff) : RefEnBlind (giveGate task src dst) :=
  refEnBlind_gate task src dst .protocol

/-! ### The two tasks' runs (R160, R180) -/

theorem refEnBlind_smpWork (p : Config.Params) (r : RawSample) : RefEnBlind (smpWork p r) := by
  intro b s
  rw [smpWork_eq_sampled, smpWork_eq_sampled]
  rfl

/-- The published height and yaw are read from the ring, the ground and the counter (R160). -/
theorem refEnBlind_smpPublish (p : Config.Params) : RefEnBlind (smpPublish p) := fun b s =>
  refEnBlind_publish .sampler .dispH (smpHeight s)
    (refEnBlind_publish .sampler .dispY (currentYaw p s) (refEnBlind_respond 0#16)) b s

theorem refEnBlind_smpRunWith (p : Config.Params) (r : RawSample) : RefEnBlind (smpRunWith p r) :=
  .ite (c := fun s => s.fatalS = true) (fun _ _ => Iff.rfl) (refEnBlind_turnAway _)
    (.ite (c := fun s => s.hs ≠ .smp) (fun _ _ => Iff.rfl) (refEnBlind_turnAway _)
      ((refEnBlind_smpPublish p).comp ((refEnBlind_smpWork p r).comp (refEnBlind_emit _))))

theorem refEnBlind_noteTicks (p : Config.Params) : RefEnBlind (noteTicks p) := by
  intro b s
  rw [noteTicks_eq, noteTicks_eq]
  rfl

/-- The yaw axis reads its own state, the channels and the targets (R180). -/
theorem refEnBlind_ctlYaw (p : Config.Params) (dt : ℚ) : RefEnBlind (ctlYaw p dt) := fun b s =>
  refEnBlind_publish .control .actY (yawDuty p dt s) (refEnBlind_respond 0#16) b { s with pidY := (yawStep p dt s).1 }

/-- The height axis reads its own state, the height channel and its target (R180). -/
theorem refEnBlind_ctlAxes (p : Config.Params) (dt : ℚ) : RefEnBlind (ctlAxes p dt) := fun b s =>
  refEnBlind_publish .control .actH (heightDuty p dt s) (refEnBlind_ctlYaw p dt) b
    { s with pidH := (heightStep p dt s).1 }

theorem refEnBlind_ctlRunWith (p : Config.Params) : RefEnBlind (ctlRunWith p) :=
  .ite (c := fun s => s.fatalC = true) (fun _ _ => Iff.rfl) (refEnBlind_turnAway _)
    (.ite (c := fun s => s.hs ≠ .ctl) (fun _ _ => Iff.rfl) (refEnBlind_turnAway _)
      (.ite (c := fun s => elapsed s.ctlLastTicks s.ports.ticks ≤ 0) (fun _ _ => Iff.rfl)
        ((refEnBlind_raiseFatal _ _ _).comp (refEnBlind_emit _))
        fun b s => ((refEnBlind_ctlAxes p (cycleDt p s)).comp
          ((refEnBlind_noteTicks p).comp (refEnBlind_emit .controlRun))) b s))

/-! ### The operations (R89) -/

/-- Every operation but `QD_REF` performs an update that is blind to the enable bit (R295). -/
theorem exec_refEnBlind {i : Instr} (hi : i ≠ .qdRef) : ∃ f, RefEnBlind f ∧ ∀ s, exec i s = .next (f s) := by
  cases hwf : i.wellFormed with
  | false => exact ⟨_, refEnBlind_turnAway _, exec_of_not_wellFormed hwf⟩
  | true =>
    cases i with
    | rfWrite i v => exact ⟨_, (refEnBlind_respond 0#16).comp (refEnBlind_pushSample i v), fun _ => rfl⟩
    | rfRead i k =>
      refine ⟨_, fun b s => ?_, exec_rfRead_of_lt (of_decide_eq_true hwf)⟩
      cases i <;> rfl
    | rfMean i =>
      refine ⟨fun s => respond (zext16 (meanOf i s)) s, fun b s => ?_, fun _ => rfl⟩
      cases i <;> rfl
    | qdEdge b a => exact ⟨qdEdgeWith params b a, fun _ _ => rfl, fun _ => rfl⟩
    | qdRef => exact absurd rfl hi
    | qdYaw => exact ⟨qdYawWith params, fun _ _ => rfl, fun _ => rfl⟩
    | smpRun r => exact ⟨_, refEnBlind_smpRunWith params r, fun _ => rfl⟩
    | ctlRun => exact ⟨_, refEnBlind_ctlRunWith params, fun _ => rfl⟩
    | hsTakeS => exact ⟨_, refEnBlind_takeGate .sampler .wfs .smp, fun _ => rfl⟩
    | hsGiveC => exact ⟨_, refEnBlind_giveGate .sampler .smp .wfc, fun _ => rfl⟩
    | hsTakeC => exact ⟨_, refEnBlind_takeGate .control .wfc .ctl, fun _ => rfl⟩
    | hsGiveS => exact ⟨_, refEnBlind_giveGate .control .ctl .wfs, fun _ => rfl⟩
    | setTgtH x => exact ⟨_, fun _ _ => rfl, exec_setTgtH_of_lt (of_decide_eq_true hwf)⟩
    | setTgtY y => exact ⟨_, fun _ _ => rfl, exec_setTgtY_of_lt (of_decide_eq_true hwf)⟩

/-- Settles O44: the operation's update keeps the bit, and commutes with setting it. -/
theorem referencePinIsInvisibleElsewhere : Obligations.ReferencePinIsInvisibleElsewhere := by
  intro i s t b hi ht
  obtain ⟨f, hblind, hexec⟩ := exec_refEnBlind hi
  obtain rfl : f s = t := Host.Outcome.next.inj ((hexec s).symm.trans ht)
  exact ⟨hblind.qdRefEn_eq s, (hexec (setRefEn b s)).trans (congrArg Host.Outcome.next (hblind b s))⟩

end Sys2Proof.Machine
end
